-- ==== Sys2Proof/Word.lean ====
section
/-! DEFINITION. The units the ports and registers move (00_scope.md R11, R13; 20_memory.md R66). -/

namespace Sys2Proof

/-- A 32-bit unit: a command word, a CSR word, a response (20_memory.md R61). -/
abbrev Word := BitVec 32

/-- One sample as the ports and the store move it: a 16-bit unit, signed two's complement where a rule uses
it as an integer (00_scope.md R13; 20_memory.md R60, R66). How many of its bits an output sample uses is the
parameter SBITS. -/
abbrev Sample := BitVec 16

/-- A fill request or a payload length, `lengthInSamples` (30_encoding.md R88, R83). -/
abbrev Length := BitVec 16

/-- An IEEE 754 binary32 value, as its 32 bits (41_resampler.md R137). -/
abbrev Binary32 := BitVec 32

/-- One byte of a byte-wide platform bus (20_memory.md R64). -/
abbrev Byte := BitVec 8

/-- `0`, the silence sample of a FILL (40_ring_buffer.md R112). -/
abbrev silence : Sample := 0#16

end Sys2Proof
end

