-- ==== Sys2Proof/Config.lean ====
section
/-! DEFINITION. What an implementation fixes, and the values the spec leaves open (00_scope.md R6, R9;
93_implementation_defined.md). An `opaque` constant has no body: nothing can be proved of its value. -/

namespace Sys2Proof

/-- The two agents (00_scope.md R8, 60_exceptions.md R218). -/
inductive Agent where
  /-- The one that issues commands and payload. -/
  | producer
  /-- The one that issues fill requests. -/
  | consumer
deriving DecidableEq, Repr, Inhabited

/-- The converter's internal state `SIGMA` (10_state.md R49). Its type is opaque in the spec
(00_scope.md R9). The model codes a state as a natural number that no rule takes apart (log 5). -/
structure Sigma where
  code : Nat
deriving DecidableEq, Repr, Inhabited

/-- The five synthesis parameters (00_scope.md R6). A model takes them as arguments, so `State` carries them
as a constant field (log 6). -/
structure Params where
  /-- `CAP`: ring-buffer capacity in samples. -/
  cap : Nat
  /-- `IN_MAX`: input scratch size in samples. -/
  inMax : Nat
  /-- `OUT_MAX`: output scratch size in samples. -/
  outMax : Nat
  /-- `CH_MAX`: largest legal CHANNELS value. -/
  chMax : Nat
  /-- `SBITS`: bits per output sample. -/
  sbits : Nat
deriving DecidableEq, Repr

/-- The legal parameter values: the range of CAP of R6, the bound of IN_MAX and OUT_MAX of R41, a CH_MAX
that fits the 4-bit CHANNELS field and admits its reset value 1 (R24), and the one SBITS for which the rules
hold as they stand, since the store and the fill port hold s16 (R13, R60, R66, R139; log 6, DEDUCED). -/
abbrev Params.Legal (p : Params) : Prop :=
  1 ≤ p.cap ∧ p.cap ≤ 2 ^ 24 ∧ p.inMax ≤ 65535 ∧ p.outMax ≤ 65535 ∧ 1 ≤ p.chMax ∧ p.chMax ≤ 15 ∧
    p.sbits = 16

/-- The values this build takes (00_scope.md R6). -/
def Config.build : Params := { cap := 16384, inMax := 4096, outMax := 8192, chMax := 2, sbits := 16 }

/-- The value of ID, "AAPB" in ASCII (10_state.md R24; 92_eei_decisions.md D1). -/
def Config.idValue : Word := 0x41415042#32

/-- The value of VERSION (10_state.md R24). -/
def Config.versionValue : Word := 1#32

/-- The type of a conversion primitive: converter state, QUALITY, CHANNELS, the Q16.16 ratio, the
requested output count and the input samples give the new converter state and the generated samples
(00_scope.md R9). -/
abbrev Converter :=
  Sigma → BitVec 4 → BitVec 4 → Word → Nat → List Binary32 → Sigma × List Binary32

/-- `SRC`, the sample-rate-conversion primitive. FREE: the spec assumes nothing of it but that it is a
total function of these arguments; the length of its result may be any number (00_scope.md R9,
41_resampler.md R138, R151; log 5). -/
opaque Config.src : Converter

/-- `SRC_INIT`, the fresh converter state of a quality level. FREE (00_scope.md R9; log 5). -/
opaque Config.srcInit : BitVec 4 → Sigma

/-- Which agent goes first at the `n`-th contention for which the state holds no choice of its own. FREE:
the order of producer and consumer steps is not fixed (60_exceptions.md R214; log 2). -/
opaque Config.schedule : Nat → Agent

/-- `AAPB_BASE`, where a platform that maps the CSRs into memory places CSR 0. FREE: left to the platform
(20_memory.md R70; log 13). -/
opaque Config.aapbBase : Nat

end Sys2Proof
end

