-- ==== Sys2Proof/Machine/State.lean ====
section
/-! DEFINITION. The state of the AAPB (10_state.md R22 to R51, 70_reset_and_hazards.md R240 to R242), the
ports that stand outside it (20_memory.md R61), and how a step can stop. -/

namespace Sys2Proof.Machine

/-- MODE.LIFE (10_state.md R27). The value 3 never occurs. -/
inductive Life where
  | closed
  | active
  | nullsink
deriving DecidableEq, Repr

/-- The control and status registers (10_state.md R24), each at the width of its field. ID, VERSION,
CAPACITY, SCRATCH and CHMAX are hard-wired and read from `Config` and `Params`. -/
structure Csrs where
  /-- MODE[1:0]. -/
  life : Life
  /-- MODE[2]. -/
  paused : Bool
  /-- MODE[3]. -/
  muted : Bool
  events : BitVec 12
  rbStart : Word
  rbEnd : Word
  rbCount : Word
  underrunCnt : Word
  dropCnt : Word
  acceptCnt : Word
  deliverCnt : Word
  spc : BitVec 16
  targetLow : BitVec 8
  maxocc : BitVec 8
  scale : BitVec 16
  hostTickMs : BitVec 16
  corrMax : BitVec 16
  channels : BitVec 4
  waitMax : Word
  nativeRate : BitVec 20
  quality : BitVec 4
  ratio : Word
  lastIn : BitVec 16
  lastOutreq : BitVec 16
  lastGen : BitVec 16
  lastFq : Word
  frametime : Word
  refresh : BitVec 16
  refreshMin : BitVec 16
  refreshMax : BitVec 16
  refreshFallback : BitVec 16
  remainder : BitVec 16
  effRefresh : BitVec 16
  lastFrames : Word
  frameAcc : Word
  frameMult : BitVec 8
  decim : BitVec 8
deriving DecidableEq, Repr

/-- The reset column of 10_state.md R24, with LIFE = CLOSED (70_reset_and_hazards.md R240). -/
def Csrs.reset : Csrs where
  life := .closed
  paused := false
  muted := false
  events := 0#12
  rbStart := 0#32
  rbEnd := 0#32
  rbCount := 0#32
  underrunCnt := 0#32
  dropCnt := 0#32
  acceptCnt := 0#32
  deliverCnt := 0#32
  spc := 512#16
  targetLow := 3#8
  maxocc := 3#8
  scale := 1#16
  hostTickMs := 16#16
  corrMax := 1310#16
  channels := 1#4
  waitMax := 1000#32
  nativeRate := 48000#20
  quality := 0#4
  ratio := 0x00010000#32
  lastIn := 0#16
  lastOutreq := 0#16
  lastGen := 0#16
  lastFq := 0#32
  frametime := 16683#32
  refresh := 60#16
  refreshMin := 1#16
  refreshMax := 1000#16
  refreshFallback := 60#16
  remainder := 0#16
  effRefresh := 0#16
  lastFrames := 0#32
  frameAcc := 0#32
  frameMult := 1#8
  decim := 1#8

/-- The sample store `STORE` (20_memory.md R60, 10_state.md R47): the elements that differ from what an
unlisted element reads as, by strictly rising index. An element is one 16-bit unit (log 4). -/
structure Store where
  cells : List (Nat × Sample)
deriving DecidableEq, Repr

/-- The producer phase (10_state.md R50). -/
inductive Phase where
  /-- Ready to accept a command. -/
  | idle
  /-- `ENQ_WAIT(S, g, polls)`: the output block S, of g = its length samples, waits to commit. -/
  | enqWait (block : List Sample) (polls : Nat)
deriving DecidableEq, Repr

/-- The machine: the state of 10_state.md R22, the contents of the ports of 20_memory.md R61 (log 1,
log 12) and the schedule of 60_exceptions.md R214 (log 2). -/
structure State where
  /-- The synthesis parameters, which no step writes (00_scope.md R6; log 6). -/
  params : Params
  csr : Csrs
  store : Store
  /-- SIGMA (10_state.md R49). -/
  sigma : Sigma
  phase : Phase
  /-- The response queue, oldest first (10_state.md R51). -/
  responses : List Word
  /-- MODEL: words on the command port, not yet accepted, oldest first. -/
  cmdIn : List Word
  /-- MODEL: samples on the sample-in port, not yet taken, oldest first. -/
  sampleIn : List Sample
  /-- MODEL: requests on the fill port, not yet served, oldest first. -/
  fillReq : List Length
  /-- MODEL: samples delivered on the fill port, oldest first. -/
  fillData : List Sample
  /-- MODEL: which agent goes first at the coming contentions. -/
  sched : List Agent
  /-- MODEL: how many contentions drew `Config.schedule`. -/
  turn : Nat
deriving DecidableEq, Repr

/-- Power-on reset (70_reset_and_hazards.md R240, R242): LIFE = CLOSED, every CSR at its reset value, SIGMA
= SRC_INIT(0), phase IDLE, no response. The ports and the schedule are empty (log 1, log 2), and no store
element is listed (log 3). -/
def State.reset : State where
  params := Config.build
  csr := Csrs.reset
  store := { cells := [] }
  sigma := Config.srcInit Csrs.reset.quality
  phase := .idle
  responses := []
  cmdIn := []
  sampleIn := []
  fillReq := []
  fillData := []
  sched := []
  turn := 0

/-- Why no step is enabled. The AAPB has no fault of its own (60_exceptions.md R223); these are its stuck
states, and both end when words arrive on a port (log 7). -/
inductive Fault where
  /-- Raised by the step when the consumer asks for nothing and the producer waits for trailing words it
  was not sent (60_exceptions.md R219, R223 (b)). Safe: nothing is claimed of what follows. -/
  | awaitingTrailingWords
  /-- Raised by the step when the producer is idle and neither the command port nor the fill port holds
  anything (10_state.md R21: commands and requests come from outside). Safe: nothing is claimed. -/
  | portsEmpty
deriving DecidableEq, Repr

/-- Why an instruction is given no meaning. -/
inductive Refusal where
  /-- Raised by `exec` for an instruction without a meaning: none in this model. Safe: the model claims
  nothing of it. -/
  | notModelled (mnemonic : String)
deriving DecidableEq, Repr

end Sys2Proof.Machine
end

