-- ==== Sys2Proof/Machine/Flags.lean ====
section
/-! DEFINITION. The sticky bits of EVENTS and the fields of MODE (10_state.md R27, R28; 60_exceptions.md
R210). `State.raise` stands where a trap would: the AAPB has no traps, saves nothing and vectors nowhere
(60_exceptions.md R210, R216). -/

namespace Sys2Proof.Machine

/-- The twelve events (10_state.md R28). -/
inductive Event where
  | underrun
  | drop
  | rehashRej
  | badCmd
  | badArg
  | queueRej
  | refreshFb
  | framesSat
  | outreqClamp
  | ratioClamp
  | waitTimeout
  | srcLong
deriving DecidableEq, Repr

/-- The event's bit number in EVENTS, its "code" (10_state.md R28, 60_exceptions.md R211). -/
def Event.code (e : Event) : Nat :=
  match e with
  | .underrun => 0
  | .drop => 1
  | .rehashRej => 2
  | .badCmd => 3
  | .badArg => 4
  | .queueRej => 5
  | .refreshFb => 6
  | .framesSat => 7
  | .outreqClamp => 8
  | .ratioClamp => 9
  | .waitTimeout => 10
  | .srcLong => 11

/-- The event's bit of EVENTS, alone. -/
def Event.bit (e : Event) : BitVec 12 := 1#12 <<< e.code

/-- Whether the event's bit of EVENTS is set. -/
def Csrs.raised (c : Csrs) (e : Event) : Bool := c.events.getLsbD e.code

/-- `raise E(info)`: set sticky bit E of EVENTS; control goes on (00_scope.md R12, 60_exceptions.md R210,
R216). `info` is recorded nowhere. -/
def State.raise (s : State) (e : Event) : State :=
  { s with csr := { s.csr with events := s.csr.events ||| e.bit } }

/-- `if c: raise E(info)`. -/
def State.raiseIf (s : State) (c : Bool) (e : Event) : State := if c then s.raise e else s

/-- A write of 1 clears a bit of EVENTS, a write of 0 leaves it; bits [31:12] are ignored (10_state.md R24,
R25 (2)). -/
def clearEvents (events : BitVec 12) (v : Word) : BitVec 12 := events &&& ~~~(v.extractLsb' 0 12)

/-- MODE.LIFE as its two bits (10_state.md R27). -/
def Life.bits (l : Life) : BitVec 2 :=
  match l with
  | .closed => 0#2
  | .active => 1#2
  | .nullsink => 2#2

/-- MODE: LIFE in [1:0], PAUSED in [2], MUTED in [3], zeros above (10_state.md R24). -/
def Csrs.mode (c : Csrs) : Word :=
  0#28 ++ BitVec.ofBool c.muted ++ BitVec.ofBool c.paused ++ c.life.bits

end Sys2Proof.Machine
end

