-- ==== Sys2Proof/Machine/Operands.lean ====
section
/-! DEFINITION. Operand forms: the CSR named by an address (10_state.md R24), and the samples of a payload
(decimation, 43_speed_controller.md R183; conversion, 41_resampler.md R137, R139). -/

namespace Sys2Proof.Machine

/-! ## CSR addresses (10_state.md R24) -/

/-- The read-only registers. -/
inductive RoCsr where
  | id
  | version
  | capacity
  | scratch
  | chmax
  | mode
  | rbStart
  | rbEnd
  | rbCount
  | nativeRate
  | quality
  | ratio
  | lastIn
  | lastOutreq
  | lastGen
  | lastFq
  | remainder
  | effRefresh
  | lastFrames
deriving DecidableEq, Repr

/-- The read-write registers. -/
inductive RwCsr where
  | underrunCnt
  | dropCnt
  | acceptCnt
  | deliverCnt
  | spc
  | targetLow
  | maxocc
  | scale
  | hostTickMs
  | corrMax
  | channels
  | waitMax
  | frametime
  | refresh
  | refreshMin
  | refreshMax
  | refreshFallback
  | frameAcc
  | frameMult
  | decim
deriving DecidableEq, Repr

/-- A register by its access type: RO, RW, or EVENTS, the one W1C register. -/
inductive Csr where
  | ro (r : RoCsr)
  | rw (r : RwCsr)
  | events
deriving DecidableEq, Repr

/-- Addresses of the read-only registers (10_state.md R24). -/
def RoCsr.addr (r : RoCsr) : BitVec 8 :=
  match r with
  | .id => 0x00#8
  | .version => 0x01#8
  | .capacity => 0x02#8
  | .scratch => 0x03#8
  | .chmax => 0x04#8
  | .mode => 0x05#8
  | .rbStart => 0x08#8
  | .rbEnd => 0x09#8
  | .rbCount => 0x0A#8
  | .nativeRate => 0x18#8
  | .quality => 0x19#8
  | .ratio => 0x1A#8
  | .lastIn => 0x1B#8
  | .lastOutreq => 0x1C#8
  | .lastGen => 0x1D#8
  | .lastFq => 0x1E#8
  | .remainder => 0x25#8
  | .effRefresh => 0x26#8
  | .lastFrames => 0x27#8

/-- Addresses of the read-write registers (10_state.md R24). -/
def RwCsr.addr (r : RwCsr) : BitVec 8 :=
  match r with
  | .underrunCnt => 0x0B#8
  | .dropCnt => 0x0C#8
  | .acceptCnt => 0x0D#8
  | .deliverCnt => 0x0E#8
  | .spc => 0x10#8
  | .targetLow => 0x11#8
  | .maxocc => 0x12#8
  | .scale => 0x13#8
  | .hostTickMs => 0x14#8
  | .corrMax => 0x15#8
  | .channels => 0x16#8
  | .waitMax => 0x17#8
  | .frametime => 0x20#8
  | .refresh => 0x21#8
  | .refreshMin => 0x22#8
  | .refreshMax => 0x23#8
  | .refreshFallback => 0x24#8
  | .frameAcc => 0x28#8
  | .frameMult => 0x30#8
  | .decim => 0x31#8

/-- The CSR map (10_state.md R24). -/
def Csr.addr (c : Csr) : BitVec 8 :=
  match c with
  | .ro r => r.addr
  | .rw r => r.addr
  | .events => 0x06#8

/-- The identification, mode and ring-buffer registers, 0x00 to 0x0E (10_state.md R24). -/
def csrMapLow : List Csr :=
  [.ro .id, .ro .version, .ro .capacity, .ro .scratch, .ro .chmax, .ro .mode, .events,
    .ro .rbStart, .ro .rbEnd, .ro .rbCount,
    .rw .underrunCnt, .rw .dropCnt, .rw .acceptCnt, .rw .deliverCnt]

/-- The resampler registers, 0x10 to 0x1E (10_state.md R24). -/
def csrMapMid : List Csr :=
  [.rw .spc, .rw .targetLow, .rw .maxocc, .rw .scale, .rw .hostTickMs, .rw .corrMax,
    .rw .channels, .rw .waitMax, .ro .nativeRate, .ro .quality, .ro .ratio,
    .ro .lastIn, .ro .lastOutreq, .ro .lastGen, .ro .lastFq]

/-- The pacer and speed registers, 0x20 to 0x31 (10_state.md R24). -/
def csrMapHigh : List Csr :=
  [.rw .frametime, .rw .refresh, .rw .refreshMin, .rw .refreshMax, .rw .refreshFallback,
    .ro .remainder, .ro .effRefresh, .ro .lastFrames, .rw .frameAcc, .rw .frameMult, .rw .decim]

/-- Every register of the map, in its order. -/
def csrMap : List Csr := csrMapLow ++ (csrMapMid ++ csrMapHigh)

/-- The register at address `a`; `none` if `a` is unmapped (10_state.md R24). -/
def csrAt (a : BitVec 8) : Option Csr := csrMap.find? fun c => c.addr = a

/-- The least and greatest value a write may give a read-write register (10_state.md R24). "any" is the
whole 32-bit range; the upper end also says that every bit above the field is zero (R25 (3)). -/
def RwCsr.range (p : Params) (r : RwCsr) : Nat × Nat :=
  match r with
  | .underrunCnt => (0, 0xFFFFFFFF)
  | .dropCnt => (0, 0xFFFFFFFF)
  | .acceptCnt => (0, 0xFFFFFFFF)
  | .deliverCnt => (0, 0xFFFFFFFF)
  | .spc => (1, 65535)
  | .targetLow => (0, 255)
  | .maxocc => (1, 255)
  | .scale => (0, 65535)
  | .hostTickMs => (0, 65535)
  | .corrMax => (0, 65535)
  | .channels => (1, p.chMax)
  | .waitMax => (0, 0xFFFFFFFF)
  | .frametime => (0, 0xFFFFFFFF)
  | .refresh => (0, 65535)
  | .refreshMin => (0, 65535)
  | .refreshMax => (0, 65535)
  | .refreshFallback => (1, 65535)
  | .frameAcc => (0, 0xFFFFFFFF)
  | .frameMult => (1, 255)
  | .decim => (1, 255)

/-- `v` is a legal value of the register (10_state.md R24, R25). -/
def RwCsr.legal (p : Params) (r : RwCsr) (v : Word) : Bool :=
  decide ((r.range p).1 ≤ v.toNat) && decide (v.toNat ≤ (r.range p).2)

/-! ## Decimation (43_speed_controller.md R183) -/

/-- `nf1`: the number of sample frames kept of `nf` at divisor `m`, round(nf / m) with ties away from
zero. -/
def keptFrames (nf m : Nat) : Nat := (2 * nf + m) / (2 * m)

/-- `decimate(x, N, m, C)`: every m-th sample frame of C samples is kept; m = 1 is the identity. -/
def decimate (x : List Sample) (m ch : Nat) : List Sample :=
  if m = 1 then x
  else
    (List.range (keptFrames (x.length / ch) m)).flatMap fun f =>
      (List.range ch).map fun c => x.getD (f * m * ch + c) silence

/-! ## Sample conversion (41_resampler.md R137, R139) -/

/-- Clamp an integer to the signed two's complement range of `n` bits (R139, the range of s16 for n = 16). -/
def clampSigned (n : Nat) (r : Int) : Sample :=
  BitVec.ofInt 16 (min (max r (-((2 ^ (n - 1) : Nat) : Int))) (((2 ^ (n - 1) : Nat) : Int) - 1))

/-- `to_work(v)`: the binary32 bits of v / 32768, exactly. For |v| = m with 2^e ≤ m < 2^(e+1) they are the
sign, the biased exponent e - 15 + 127 and the fraction (m - 2^e) * 2^(23-e); 0 gives +0 (R137; log 9). -/
def toWork (v : Sample) : Binary32 :=
  let m := v.toInt.natAbs
  if m = 0 then 0#32
  else
    let e := Nat.log2 m
    BitVec.ofBool v.msb ++ BitVec.ofNat 8 (e + 112) ++ BitVec.ofNat 23 ((m - 2 ^ e) * 2 ^ (23 - e))

/-- `roundTiesToEven(m / 2^d)` (R139). -/
def roundTiesToEven (m d : Nat) : Nat :=
  let q := m / 2 ^ d
  let r := m % 2 ^ d
  if 2 * r < 2 ^ d then q
  else if 2 ^ d < 2 * r then q + 1
  else if q % 2 = 0 then q else q + 1

/-- The output conversion to `n` bits: NaN gives 0; the infinities saturate; a finite y is M * 2^E with M its
significand and E = max(exponent, 1) - 150, so y * 2^(n-1) = M * 2^(E + n - 1), rounded to nearest, ties to
even, and clamped (R139, whose scale 32768 is 2^(n-1) for n = 16; log 6, log 9). -/
def saturate (n : Nat) (y : Binary32) : Sample :=
  let expo := (y.extractLsb' 23 8).toNat
  let frac := (y.extractLsb' 0 23).toNat
  if expo = 255 then
    if frac = 0 then
      clampSigned n (if y.msb then -((2 ^ (n - 1) : Nat) : Int) else ((2 ^ (n - 1) : Nat) : Int))
    else 0#16
  else
    let m := if expo = 0 then frac else 2 ^ 23 + frac
    let x := max expo 1
    let r :=
      if 151 ≤ x + n then m * 2 ^ (x + n - 151) else roundTiesToEven m (151 - (x + n))
    clampSigned n (if y.msb then -(r : Int) else (r : Int))

/-- `sat16(y)` (R139). -/
def sat16 (y : Binary32) : Sample := saturate 16 y

end Sys2Proof.Machine
end

