-- ==== Sys2Proof/Machine/Ops.lean ====
section
/-! DEFINITION. The named operations over the store, the ports and the ring buffer (20_memory.md R60, R67;
40_ring_buffer.md R112, R115, R117), and the lifecycle check of a command (30_encoding.md R86 (3)).

There is no trap entry and no return from one to write here: "Trap entry and return do not exist"
(60_exceptions.md R216). What stands in their place, `raise`, is in Machine/Flags.lean. -/

namespace Sys2Proof.Machine

/-- What every meaning answers. -/
abbrev Result := Host.Outcome State Fault Refusal

/-! ## The sample store (20_memory.md R60) -/

/-- What an element of the store that no commit has written reads as. The spec leaves it unspecified and
unobservable and lets a model fix it to 0 (10_state.md R47, 93_implementation_defined.md section 2; log 3,
DESIGN CHOICE). -/
def unwritten : Sample := 0#16

/-- The value listed at index `i`, or `unwritten`. -/
def lookupCell : List (Nat × Sample) → Nat → Sample
  | [], _ => unwritten
  | (j, v) :: rest, i => if j = i then v else lookupCell rest i

/-- The cells with `v` at index `i`, in canonical form: an entry equal to `unwritten` is not listed. -/
def insertCell : List (Nat × Sample) → Nat → Sample → List (Nat × Sample)
  | [], i, v => if v = unwritten then [] else [(i, v)]
  | (j, w) :: rest, i, v =>
    if i < j then (if v = unwritten then (j, w) :: rest else (i, v) :: (j, w) :: rest)
    else if i = j then (if v = unwritten then rest else (i, v) :: rest)
    else (j, w) :: insertCell rest i v

/-- `MemRead(i, 1)` (20_memory.md R60). -/
def Store.read (m : Store) (i : Nat) : Sample := lookupCell m.cells i

/-- `MemWrite(i, 1, v)` (20_memory.md R60). -/
def Store.write (m : Store) (i : Nat) (v : Sample) : Store := { cells := insertCell m.cells i v }

/-- The canonical form: indices strictly rising, and no entry equal to `unwritten`. -/
abbrev Store.wf (m : Store) : Prop :=
  m.cells.Pairwise (fun a b => a.1 < b.1) ∧ ∀ c ∈ m.cells, c.2 ≠ unwritten

/-- Write a block from index `at_` on, each index reduced mod `cap` (40_ring_buffer.md R117). -/
def Store.writeBlock (m : Store) (cap : Nat) : Nat → List Sample → Store
  | _, [] => m
  | at_, v :: rest => Store.writeBlock (m.write (at_ % cap) v) cap (at_ + 1) rest

/-! ## Ports (20_memory.md R61) -/

/-- `respond(v)` (00_scope.md R12, 10_state.md R51). -/
def State.respond (s : State) (v : Word) : State := { s with responses := s.responses ++ [v] }

/-- `deliver` each of `xs` in order (00_scope.md R12). -/
def State.deliver (s : State) (xs : List Sample) : State := { s with fillData := s.fillData ++ xs }

/-! ## Lifecycle (30_encoding.md R86 (3), R92) -/

/-- `s` after a refused command word: BAD_CMD, and nothing else changes (30_encoding.md R86). -/
def State.refuseCommand (s : State) : State := s.raise .badCmd

/-- The effect `t` of a command that CLOSED does not allow: in CLOSED the word is refused (R92). -/
def State.unlessClosed (s t : State) : State :=
  if s.csr.life = .closed then s.refuseCommand else t

/-! ## The ring buffer (40_ring_buffer.md) -/

/-- The oldest `n` elements of the store from RB_START on, each index reduced mod CAP (R112). -/
def State.window (s : State) (n : Nat) : List Sample :=
  (List.range n).map fun i => s.store.read ((s.csr.rbStart.toNat + i) % s.params.cap)

/-- How many stored samples a FILL of `k` delivers: `min(k, RB_COUNT)` (R112). -/
def State.fillCount (s : State) (k : Nat) : Nat := min k s.csr.rbCount.toNat

/-- A FILL that touches the ring buffer: the stored samples, the silence that pads them, the indices and
the counters (R112). -/
def State.dequeue (s : State) (k : Nat) : State :=
  let r := s.fillCount k
  let taken : State :=
    { s with
      csr :=
        { s.csr with
          rbStart := BitVec.ofNat 32 ((s.csr.rbStart.toNat + r) % s.params.cap)
          rbCount := BitVec.ofNat 32 (s.csr.rbCount.toNat - r)
          deliverCnt := s.csr.deliverCnt + BitVec.ofNat 32 r
          underrunCnt := if r < k then s.csr.underrunCnt + 1#32 else s.csr.underrunCnt } }
  (taken.deliver (s.window r ++ List.replicate (k - r) silence)).raiseIf (decide (r < k)) .underrun

/-- `a`: how many samples of a block of `g` fit (R117). -/
def State.fits (s : State) (g : Nat) : Nat := min g (s.params.cap - s.csr.rbCount.toNat)

/-- `commit(S, g)`: the portion that fits is written behind RB_END, the rest is dropped, the phase is IDLE
(R117). -/
def State.commit (s : State) (block : List Sample) : State :=
  let g := block.length
  let a := s.fits g
  let stored : State :=
    { s with
      store := s.store.writeBlock s.params.cap s.csr.rbEnd.toNat (block.take a)
      csr :=
        { s.csr with
          rbEnd := BitVec.ofNat 32 ((s.csr.rbEnd.toNat + a) % s.params.cap)
          rbCount := BitVec.ofNat 32 (s.csr.rbCount.toNat + a)
          acceptCnt := s.csr.acceptCnt + BitVec.ofNat 32 a
          dropCnt := s.csr.dropCnt + BitVec.ofNat 32 (g - a) }
      phase := .idle }
  stored.raiseIf (decide (a < g)) .drop

/-- `LIMIT = min(CAP, MAXOCC * SPC)` (R115, 10_state.md R33). -/
def State.limit (s : State) : Nat := min s.params.cap (s.csr.maxocc.toNat * s.csr.spc.toNat)

/-- `hold`: the store is too full to release a block of `g` samples (R115). -/
def State.hold (s : State) (g : Nat) : Bool :=
  decide (s.limit - min g s.limit < s.csr.rbCount.toNat)

/-- One step of a waiting enqueue: the commit, a poll, or the commit that a timeout forces (R115). -/
def State.enqueueStep (s : State) : State :=
  match s.phase with
  | .idle => s
  | .enqWait block polls =>
    if s.hold block.length then
      if polls < s.csr.waitMax.toNat then { s with phase := .enqWait block (polls + 1) }
      else (s.raise .waitTimeout).commit block
    else s.commit block

end Sys2Proof.Machine
end

