-- ==== Sys2Proof/Machine/Engine.lean ====
section
/-! DEFINITION. OPEN, CLOSE, CSRR and CSRW (44_engine_control.md; 10_state.md R24 to R26). -/

namespace Sys2Proof.Machine

/-! ## CSR reads and writes -/

/-- The value of a read-only register, zeros outside its field (10_state.md R24, R26). -/
def RoCsr.value (r : RoCsr) (s : State) : Word :=
  match r with
  | .id => Config.idValue
  | .version => Config.versionValue
  | .capacity => BitVec.ofNat 32 s.params.cap
  | .scratch => BitVec.ofNat 16 s.params.outMax ++ BitVec.ofNat 16 s.params.inMax
  | .chmax => (BitVec.ofNat 4 s.params.chMax).zeroExtend 32
  | .mode => s.csr.mode
  | .rbStart => s.csr.rbStart
  | .rbEnd => s.csr.rbEnd
  | .rbCount => s.csr.rbCount
  | .nativeRate => s.csr.nativeRate.zeroExtend 32
  | .quality => s.csr.quality.zeroExtend 32
  | .ratio => s.csr.ratio
  | .lastIn => s.csr.lastIn.zeroExtend 32
  | .lastOutreq => s.csr.lastOutreq.zeroExtend 32
  | .lastGen => s.csr.lastGen.zeroExtend 32
  | .lastFq => s.csr.lastFq
  | .remainder => s.csr.remainder.zeroExtend 32
  | .effRefresh => s.csr.effRefresh.zeroExtend 32
  | .lastFrames => s.csr.lastFrames

/-- The value of a read-write register, zeros outside its field (10_state.md R24, R26). -/
def RwCsr.value (r : RwCsr) (s : State) : Word :=
  match r with
  | .underrunCnt => s.csr.underrunCnt
  | .dropCnt => s.csr.dropCnt
  | .acceptCnt => s.csr.acceptCnt
  | .deliverCnt => s.csr.deliverCnt
  | .spc => s.csr.spc.zeroExtend 32
  | .targetLow => s.csr.targetLow.zeroExtend 32
  | .maxocc => s.csr.maxocc.zeroExtend 32
  | .scale => s.csr.scale.zeroExtend 32
  | .hostTickMs => s.csr.hostTickMs.zeroExtend 32
  | .corrMax => s.csr.corrMax.zeroExtend 32
  | .channels => s.csr.channels.zeroExtend 32
  | .waitMax => s.csr.waitMax
  | .frametime => s.csr.frametime
  | .refresh => s.csr.refresh.zeroExtend 32
  | .refreshMin => s.csr.refreshMin.zeroExtend 32
  | .refreshMax => s.csr.refreshMax.zeroExtend 32
  | .refreshFallback => s.csr.refreshFallback.zeroExtend 32
  | .frameAcc => s.csr.frameAcc
  | .frameMult => s.csr.frameMult.zeroExtend 32
  | .decim => s.csr.decim.zeroExtend 32

/-- The value of a mapped register (10_state.md R26). -/
def Csr.value (c : Csr) (s : State) : Word :=
  match c with
  | .ro r => r.value s
  | .rw r => r.value s
  | .events => s.csr.events.zeroExtend 32

/-- The registers after a legal write of `v`. A FRAMETIME that changes also clears REMAINDER (10_state.md
R25 (3), R42). -/
def RwCsr.set (r : RwCsr) (v : Word) (c : Csrs) : Csrs :=
  match r with
  | .underrunCnt => { c with underrunCnt := v }
  | .dropCnt => { c with dropCnt := v }
  | .acceptCnt => { c with acceptCnt := v }
  | .deliverCnt => { c with deliverCnt := v }
  | .spc => { c with spc := v.truncate 16 }
  | .targetLow => { c with targetLow := v.truncate 8 }
  | .maxocc => { c with maxocc := v.truncate 8 }
  | .scale => { c with scale := v.truncate 16 }
  | .hostTickMs => { c with hostTickMs := v.truncate 16 }
  | .corrMax => { c with corrMax := v.truncate 16 }
  | .channels => { c with channels := v.truncate 4 }
  | .waitMax => { c with waitMax := v }
  | .frametime => { c with frametime := v, remainder := if v = c.frametime then c.remainder else 0#16 }
  | .refresh => { c with refresh := v.truncate 16 }
  | .refreshMin => { c with refreshMin := v.truncate 16 }
  | .refreshMax => { c with refreshMax := v.truncate 16 }
  | .refreshFallback => { c with refreshFallback := v.truncate 16 }
  | .frameAcc => { c with frameAcc := v }
  | .frameMult => { c with frameMult := v.truncate 8 }
  | .decim => { c with decim := v.truncate 8 }

/-- `write_csr(a, v)`: the four cases of 10_state.md R25. -/
def State.writeCsr (s : State) (a : BitVec 8) (v : Word) : State :=
  match csrAt a with
  | none => s.raise .badArg
  | some (.ro _) => s.raise .badArg
  | some .events => { s with csr := { s.csr with events := clearEvents s.csr.events v } }
  | some (.rw r) =>
    if r.legal s.params v then { s with csr := r.set v s.csr } else s.raise .badArg

/-- `respond(read_csr(a))`: the two cases of 10_state.md R26. -/
def State.readCsr (s : State) (a : BitVec 8) : State :=
  match csrAt a with
  | none => (s.raise .badArg).respond 0#32
  | some c => s.respond (c.value s)

/-! ## The commands -/

/-- OPEN (44_engine_control.md R190, 70_reset_and_hazards.md R241): every lifecycle state allows it. The
store, the ports and the parameters keep what they hold. -/
def execOpenDev (devOk : Bool) (s : State) : Result :=
  .next
    { s with
      csr := { Csrs.reset with life := if devOk then .active else .nullsink }
      sigma := Config.srcInit Csrs.reset.quality
      phase := .idle
      responses := [] }

/-- CLOSE (44_engine_control.md R191): every lifecycle state allows it. -/
def execClose (s : State) : Result := .next { s with csr := { s.csr with life := .closed } }

/-- CSRR (44_engine_control.md R192): every lifecycle state allows it. -/
def execCsrr (addr : BitVec 8) (s : State) : Result := .next (s.readCsr addr)

/-- CSRW (44_engine_control.md R193). -/
def execCsrw (addr : BitVec 8) (v : Word) (s : State) : Result :=
  .next (s.unlessClosed (s.writeCsr addr v))

end Sys2Proof.Machine
end

