-- ==== Sys2Proof/Machine/Pacer.lean ====
section
/-! DEFINITION. TICK (42_frame_pacer.md). -/

namespace Sys2Proof.Machine

/-- The reported rate is zero or outside [REFRESH_MIN, REFRESH_MAX] (42_frame_pacer.md R161, 10_state.md
R43). -/
def Csrs.refreshImplausible (c : Csrs) : Bool :=
  decide (c.refresh = 0#16) || decide (c.refresh < c.refreshMin) || decide (c.refreshMax < c.refresh)

/-- `effective_refresh()` (42_frame_pacer.md R161). -/
def Csrs.effectiveRefresh (c : Csrs) : BitVec 16 :=
  if c.refreshImplausible then c.refreshFallback else c.refresh

/-- The remainder a TICK starts from: 0 when the effective refresh differs from EFF_REFRESH (R162). -/
def Csrs.startRemainder (c : Csrs) : Nat :=
  if c.effectiveRefresh ≠ c.effRefresh then 0 else c.remainder.toNat

/-- Division and accumulation: the frame count and the new remainder (R163). -/
def pace (frametime r rem0 : Nat) : Nat × Nat :=
  let rem := rem0 + frametime % r
  if r ≤ rem then (frametime / r + 1, rem - r) else (frametime / r, rem)

/-- The largest u32, where a frame count saturates (R164). -/
def maxFrames : Nat := 2 ^ 32 - 1

/-- `speed_scale(f)` (R164). -/
def Csrs.speedScale (c : Csrs) (f : Nat) : Nat :=
  if c.paused then 0 else min (f * c.frameMult.toNat) maxFrames

/-- `speed_scale(f)` raises FRAMES_SAT (R164). -/
def Csrs.framesSaturate (c : Csrs) (f : Nat) : Bool :=
  !c.paused && decide (maxFrames < f * c.frameMult.toNat)

/-- TICK where the lifecycle allows it (42_frame_pacer.md R160). -/
def tickCommand (s : State) : State :=
  let c := s.csr
  let p := pace c.frametime.toNat c.effectiveRefresh.toNat c.startRemainder
  let out : Word := BitVec.ofNat 32 (c.speedScale p.1)
  let paced : State :=
    { s with
      csr :=
        { c with
          effRefresh := c.effectiveRefresh
          remainder := BitVec.ofNat 16 p.2
          frameAcc := c.frameAcc + BitVec.ofNat 32 p.1
          lastFrames := out } }
  ((paced.raiseIf c.refreshImplausible .refreshFb).raiseIf (c.framesSaturate p.1) .framesSat).respond out

/-- TICK (42_frame_pacer.md R160). -/
def execTick (s : State) : Result := .next (s.unlessClosed (tickCommand s))

end Sys2Proof.Machine
end

