-- ==== Sys2Proof/Machine/Resampler.lean ====
section
/-! DEFINITION. QUEUE, REHASH and SETMUTE (41_resampler.md). -/

namespace Sys2Proof.Machine

/-! ## Occupancy feedback (R133 to R135) -/

/-- `fq = RB_COUNT div SPC` (R133). -/
def Csrs.framesQueued (c : Csrs) : Nat := c.rbCount.toNat / c.spc.toNat

/-- `step`: how many callback periods are missing, 0 at or above TARGET_LOW (R134, R142). -/
def Csrs.correctionStep (c : Csrs) (fq : Nat) : Nat := c.targetLow.toNat - fq

/-- `raw`: the uncorrected Q16.16 quotient (R134). -/
def Csrs.rawRatio (c : Csrs) (step : Nat) : Nat :=
  (c.nativeRate.toNat + c.hostTickMs.toNat * step) * 65536 / c.nativeRate.toNat

/-- `clamp(raw, 65536 - CORR_MAX, 65536 + CORR_MAX)` (R134). -/
def Csrs.clampRatio (c : Csrs) (raw : Nat) : Nat :=
  min (max raw (65536 - c.corrMax.toNat)) (65536 + c.corrMax.toNat)

/-- What `correction(fq, n1)` gives, and which events it raises (R134, R135). -/
structure Correction where
  ratio : Nat
  oreq : Nat
  ratioClamped : Bool
  oreqClamped : Bool
deriving DecidableEq, Repr

/-- `correction(fq, n1)` (R134, R135). -/
def correction (p : Params) (c : Csrs) (fq n1 : Nat) : Correction :=
  let step := c.correctionStep fq
  let raw := c.rawRatio step
  let ratio := if fq < c.targetLow.toNat then c.clampRatio raw else 65536
  let oreq := if 0 < step then n1 + step * c.scale.toNat else n1
  { ratio := ratio
    oreq := min oreq p.outMax
    ratioClamped := decide (fq < c.targetLow.toNat) && decide (ratio ≠ raw)
    oreqClamped := decide (p.outMax < oreq) }

/-! ## QUEUE (R130) -/

/-- The output block `S`: at most OUT_MAX generated samples (R141), converted to SBITS bits (R139, 00_scope.md
R6), replaced by zeros when muted (R153). -/
def outputBlock (p : Params) (muted : Bool) (ys : List Binary32) : List Sample :=
  (ys.take p.outMax).map fun y => if muted then silence else saturate p.sbits y

/-- The snapshot-and-convert step of an accepted QUEUE with N > 0, for a conversion primitive `conv`
(R130, R136, R138). -/
def queueSnapshot (conv : Converter) (x : List Sample) (s : State) : State :=
  let c := s.csr
  let xd := decimate x c.decim.toNat c.channels.toNat
  let fq := c.framesQueued
  let k := correction s.params c fq xd.length
  let ratio : Word := BitVec.ofNat 32 k.ratio
  let made := conv s.sigma c.quality c.channels ratio k.oreq (xd.map toWork)
  let block := outputBlock s.params c.muted made.2
  let converted : State :=
    { s with
      sigma := made.1
      csr :=
        { c with
          ratio := ratio
          lastIn := BitVec.ofNat 16 xd.length
          lastOutreq := BitVec.ofNat 16 k.oreq
          lastGen := BitVec.ofNat 16 block.length
          lastFq := BitVec.ofNat 32 fq }
      phase := if block.isEmpty then s.phase else .enqWait block 0 }
  ((converted.raiseIf k.ratioClamped .ratioClamp).raiseIf k.oreqClamped .outreqClamp).raiseIf
    (decide (s.params.outMax < made.2.length)) .srcLong

/-- QUEUE where the lifecycle allows it (R130, R131). -/
def queueCommand (conv : Converter) (x : List Sample) (s : State) : State :=
  if s.csr.life = .nullsink then s
  else if s.params.inMax < x.length then s.raise .queueRej
  else if x.isEmpty then s
  else queueSnapshot conv x s

/-- QUEUE (41_resampler.md R130). -/
def execQueue (x : List Sample) (s : State) : Result :=
  .next (s.unlessClosed (queueCommand Config.src x s))

/-! ## REHASH and SETMUTE (R150, R152) -/

/-- REHASH where the lifecycle allows it (R150). -/
def rehashCommand (q : BitVec 4) (rate : BitVec 20) (s : State) : State :=
  if rate = 0#20 ∨ s.csr.ratio = 0#32 then s.raise .rehashRej
  else
    { s with
      csr := { s.csr with nativeRate := rate, quality := q }
      sigma := Config.srcInit q }

/-- REHASH (41_resampler.md R150). -/
def execRehash (q : BitVec 4) (rate : BitVec 20) (s : State) : Result :=
  .next (s.unlessClosed (rehashCommand q rate s))

/-- SETMUTE (41_resampler.md R152). -/
def execSetmute (f : Bool) (s : State) : Result :=
  .next (s.unlessClosed { s with csr := { s.csr with muted := f } })

end Sys2Proof.Machine
end

