-- ==== Sys2Proof/Machine/RingBuffer.lean ====
section
/-! DEFINITION. FILL and ENQRAW (40_ring_buffer.md). -/

namespace Sys2Proof.Machine

/-- FILL (40_ring_buffer.md R112): outside ACTIVE, or paused, silence and no other change. -/
def fillRequest (k : Nat) (s : State) : State :=
  if s.csr.life ≠ .active ∨ s.csr.paused = true then s.deliver (List.replicate k silence)
  else s.dequeue k

/-- FILL: one atomic consumer step (40_ring_buffer.md R112). -/
def execFill (k : Length) (s : State) : Result := .next (fillRequest k.toNat s)

/-- ENQRAW where the lifecycle allows it (40_ring_buffer.md R118). -/
def enqrawCommand (x : List Sample) (s : State) : State :=
  if s.csr.life = .nullsink then s
  else if s.params.outMax < x.length then s.raise .queueRej
  else if x.isEmpty then s
  else { s with phase := .enqWait x 0 }

/-- ENQRAW (40_ring_buffer.md R118). -/
def execEnqraw (x : List Sample) (s : State) : Result :=
  .next (s.unlessClosed (enqrawCommand x s))

end Sys2Proof.Machine
end

