-- ==== Sys2Proof/Machine/Speed.lean ====
section
/-! DEFINITION. SETSPEED, PAUSE and UNPAUSE (43_speed_controller.md). Decimation is in
Machine/Operands.lean. -/

namespace Sys2Proof.Machine

/-- SETSPEED where the lifecycle allows it (43_speed_controller.md R180, R181). -/
def setspeedCommand (m : BitVec 8) (s : State) : State :=
  if m = 0#8 then s.raise .badArg
  else { s with csr := { s.csr with frameMult := m, decim := m } }

/-- SETSPEED (43_speed_controller.md R180). -/
def execSetspeed (m : BitVec 8) (s : State) : Result :=
  .next (s.unlessClosed (setspeedCommand m s))

/-- PAUSE (43_speed_controller.md R184). -/
def execPause (s : State) : Result :=
  .next (s.unlessClosed { s with csr := { s.csr with paused := true } })

/-- UNPAUSE (43_speed_controller.md R185). -/
def execUnpause (s : State) : Result :=
  .next (s.unlessClosed { s with csr := { s.csr with paused := false } })

end Sys2Proof.Machine
end

