-- ==== Sys2Proof/Syntax.lean ====
section
/-! DEFINITION. The instructions: the 12 commands of the command port and the request of the fill port
(30_encoding.md R89), one constructor for each row of the opcode table. A command carries its trailing
words: the CSRW data word and the payload of QUEUE and ENQRAW (R90: `execute(op, w, d, x)`). -/

namespace Sys2Proof

/-- An instruction of the AAPB (30_encoding.md R89, R95). -/
inductive Instr where
  /-- `OPEN dev_ok` (44_engine_control.md R190). -/
  | openDev (devOk : Bool)
  /-- `CLOSE` (44_engine_control.md R191). -/
  | close
  /-- `TICK` (42_frame_pacer.md R160). -/
  | tick
  /-- `QUEUE n, x` with n the length of the payload x (41_resampler.md R130). -/
  | queue (x : List Sample)
  /-- `SETSPEED m` (43_speed_controller.md R180). -/
  | setspeed (m : BitVec 8)
  /-- `PAUSE` (43_speed_controller.md R184). -/
  | pause
  /-- `UNPAUSE` (43_speed_controller.md R185). -/
  | unpause
  /-- `SETMUTE f` (41_resampler.md R152). -/
  | setmute (f : Bool)
  /-- `REHASH q, rate` (41_resampler.md R150). -/
  | rehash (q : BitVec 4) (rate : BitVec 20)
  /-- `CSRW addr, v` with its data word v (44_engine_control.md R193). -/
  | csrw (addr : BitVec 8) (v : Word)
  /-- `CSRR addr` (44_engine_control.md R192). -/
  | csrr (addr : BitVec 8)
  /-- `ENQRAW n, x` with n the length of the payload x (40_ring_buffer.md R118). -/
  | enqraw (x : List Sample)
  /-- `FILL k`, on the fill port (40_ring_buffer.md R112). -/
  | fill (k : Length)
deriving DecidableEq, Repr

end Sys2Proof
end

