-- ==== Sys2Proof/Machine/Dispatch.lean ====
section
/-! DEFINITION. One arm per instruction, each one direct call of its meaning. -/

namespace Sys2Proof.Machine

def exec (i : Instr) (s : State) : Host.Outcome State Fault Refusal :=
  match i with
  | .openDev devOk => Sys2Proof.Machine.execOpenDev devOk s
  | .close => Sys2Proof.Machine.execClose s
  | .tick => Sys2Proof.Machine.execTick s
  | .queue x => Sys2Proof.Machine.execQueue x s
  | .setspeed m => Sys2Proof.Machine.execSetspeed m s
  | .pause => Sys2Proof.Machine.execPause s
  | .unpause => Sys2Proof.Machine.execUnpause s
  | .setmute f => Sys2Proof.Machine.execSetmute f s
  | .rehash q rate => Sys2Proof.Machine.execRehash q rate s
  | .csrw addr v => Sys2Proof.Machine.execCsrw addr v s
  | .csrr addr => Sys2Proof.Machine.execCsrr addr s
  | .enqraw x => Sys2Proof.Machine.execEnqraw x s
  | .fill k => Sys2Proof.Machine.execFill k s

end Sys2Proof.Machine
end

