-- ==== Sys2Proof/WellFormed.lean ====
section
/-! DEFINITION. Which instructions have an encoding. Every operand but a payload has the width of its
field by its type; a payload's length must fit the 16-bit field N of format L (30_encoding.md R83). -/

namespace Sys2Proof

/-- The payload's length is the field N, unsigned 0..65535 (30_encoding.md R83). -/
abbrev PayloadFits (x : List Sample) : Prop := x.length < 65536

/-- `i` has an encoding: the words of 30_encoding.md R80 to R88. -/
abbrev Instr.WellFormed (i : Instr) : Prop :=
  match i with
  | .openDev _ => True
  | .close => True
  | .tick => True
  | .queue x => PayloadFits x
  | .setspeed _ => True
  | .pause => True
  | .unpause => True
  | .setmute _ => True
  | .rehash _ _ => True
  | .csrw _ _ => True
  | .csrr _ => True
  | .enqraw x => PayloadFits x
  | .fill _ => True

end Sys2Proof
end

