-- ==== Sys2Proof/Decode.lean ====
section
/-! DEFINITION. The decoder of the command port and the fill port, and the encoder (30_encoding.md). -/

namespace Sys2Proof

/-! ## Fields of a command word (R80, R91: unsigned, straight from the bits) -/

/-- `OP`, bits [31:28] (R80). -/
def opcode (w : Word) : BitVec 4 := w.extractLsb' 28 4

/-- `F`, bit 0 of format B (R82). -/
def fieldF (w : Word) : Bool := w.getLsbD 0

/-- `N`, bits [15:0] of format L (R83). -/
def fieldN (w : Word) : Length := w.extractLsb' 0 16

/-- `M`, bits [7:0] of format S (R84). -/
def fieldM (w : Word) : BitVec 8 := w.extractLsb' 0 8

/-- `Q`, bits [27:24] of format H (R85). -/
def fieldQ (w : Word) : BitVec 4 := w.extractLsb' 24 4

/-- `RATE`, bits [23:4] of format H (R85). -/
def fieldRate (w : Word) : BitVec 20 := w.extractLsb' 4 20

/-- `ADDR`, bits [7:0] of format A (R87). -/
def fieldAddr (w : Word) : BitVec 8 := w.extractLsb' 0 8

/-! ## Framing (R90): a command's extent, from OP and bits [15:0] alone -/

/-- How many command-port words follow `w`: the data word of OP = 0xA (R90). -/
def trailingWords (w : Word) : Nat := if opcode w = 0xA#4 then 1 else 0

/-- How many samples follow `w` on sample-in: `zext_32(w[15:0])` of OP = 0x4 and OP = 0xC (R90). -/
def trailingSamples (w : Word) : Nat :=
  if opcode w = 0x4#4 ∨ opcode w = 0xC#4 then (fieldN w).toNat else 0

/-- One whole command: its word, its data word (0 where it has none) and its payload (R90). -/
structure Frame where
  word : Word
  data : Word
  payload : List Sample
deriving DecidableEq, Repr

/-- A frame taken off the two producer ports, and what is left on them. -/
structure Framed where
  frame : Frame
  cmdRest : List Word
  sampleRest : List Sample
deriving DecidableEq, Repr

/-- Take one whole command off the command port `cmd` and the sample-in port `smp`, refused or not
(R90, R97). `none`: there is no command word, or its trailing words have not all arrived (R195). -/
def takeFrame (cmd : List Word) (smp : List Sample) : Option Framed :=
  match cmd with
  | [] => none
  | w :: rest =>
    if trailingWords w ≤ rest.length ∧ trailingSamples w ≤ smp.length then
      some
        { frame :=
            { word := w
              data := if trailingWords w = 0 then 0#32 else rest.headD 0#32
              payload := smp.take (trailingSamples w) }
          cmdRest := rest.drop (trailingWords w)
          sampleRest := smp.drop (trailingSamples w) }
    else none

/-! ## Decoding -/

/-- Why a command word is no command (R86 (1) and (2)). Lifecycle legality, R86 (3), is checked where a
command executes. -/
inductive DecodeError where
  /-- OP is 0x0, 0xD, 0xE or 0xF (R86 (1), R93). -/
  | reservedOpcode
  /-- A bit that the format marks reserved is 1 (R86 (2)). -/
  | reservedBits
deriving DecidableEq, Repr

/-- `i`, unless `w` has a 1 among the bits of `reserved` (R86 (2)). -/
def unlessReserved (reserved w : Word) (i : Instr) : Except DecodeError Instr :=
  if w &&& reserved = 0#32 then .ok i else .error .reservedBits

/-- Reserved bits [27:0] of format N (R81). -/
def reservedN : Word := 0x0FFFFFFF#32

/-- Reserved bits [27:1] of format B (R82). -/
def reservedB : Word := 0x0FFFFFFE#32

/-- Reserved bits [27:16] of format L (R83). -/
def reservedL : Word := 0x0FFF0000#32

/-- Reserved bits [27:8] of format S (R84). -/
def reservedS : Word := 0x0FFFFF00#32

/-- Reserved bits [3:0] of format H (R85). -/
def reservedH : Word := 0x0000000F#32

/-- Reserved bits [27:8] of format A (R87). -/
def reservedA : Word := 0x0FFFFF00#32

/-- The command a frame stands for, by the opcode map (R89), or the reason it is none (R86). -/
def decode (f : Frame) : Except DecodeError Instr :=
  match opcode f.word with
  | 0x1#4 => unlessReserved reservedB f.word (.openDev (fieldF f.word))
  | 0x2#4 => unlessReserved reservedN f.word .close
  | 0x3#4 => unlessReserved reservedN f.word .tick
  | 0x4#4 => unlessReserved reservedL f.word (.queue f.payload)
  | 0x5#4 => unlessReserved reservedS f.word (.setspeed (fieldM f.word))
  | 0x6#4 => unlessReserved reservedN f.word .pause
  | 0x7#4 => unlessReserved reservedN f.word .unpause
  | 0x8#4 => unlessReserved reservedB f.word (.setmute (fieldF f.word))
  | 0x9#4 => unlessReserved reservedH f.word (.rehash (fieldQ f.word) (fieldRate f.word))
  | 0xA#4 => unlessReserved reservedA f.word (.csrw (fieldAddr f.word) f.data)
  | 0xB#4 => unlessReserved reservedA f.word (.csrr (fieldAddr f.word))
  | 0xC#4 => unlessReserved reservedL f.word (.enqraw f.payload)
  | _ => .error .reservedOpcode

/-- The instruction of a fill request: every request is one (R88). -/
def decodeFill (k : Length) : Instr := .fill k

/-! ## Encoding, from the format tables R81 to R88 -/

/-- What stands on the three input ports (20_memory.md R61), oldest first. -/
structure PortWords where
  /-- Command port. -/
  cmd : List Word
  /-- Sample-in port. -/
  samples : List Sample
  /-- Requests of the fill port. -/
  fills : List Length
deriving DecidableEq, Repr

/-- Format N: OP and 28 zeros (R81). -/
def formatN (op : BitVec 4) : Word := op ++ 0#28

/-- Format B: OP, 27 zeros, F (R82). -/
def formatB (op : BitVec 4) (f : Bool) : Word := op ++ 0#27 ++ BitVec.ofBool f

/-- Format L: OP, 12 zeros, N (R83). -/
def formatL (op : BitVec 4) (n : Length) : Word := op ++ 0#12 ++ n

/-- Format S: OP, 20 zeros, M (R84). -/
def formatS (op : BitVec 4) (m : BitVec 8) : Word := op ++ 0#20 ++ m

/-- Format H: OP, Q, RATE, 4 zeros (R85). -/
def formatH (op q : BitVec 4) (rate : BitVec 20) : Word := op ++ q ++ rate ++ 0#4

/-- Format A: OP, 20 zeros, ADDR (R87). -/
def formatA (op : BitVec 4) (addr : BitVec 8) : Word := op ++ 0#20 ++ addr

/-- A command of one word. -/
def oneWord (w : Word) : PortWords := { cmd := [w], samples := [], fills := [] }

/-- What the producer or the consumer puts on its ports for `i` (R80 to R91). -/
def encode (i : Instr) : PortWords :=
  match i with
  | .openDev f => oneWord (formatB 0x1#4 f)
  | .close => oneWord (formatN 0x2#4)
  | .tick => oneWord (formatN 0x3#4)
  | .queue x => { cmd := [formatL 0x4#4 (BitVec.ofNat 16 x.length)], samples := x, fills := [] }
  | .setspeed m => oneWord (formatS 0x5#4 m)
  | .pause => oneWord (formatN 0x6#4)
  | .unpause => oneWord (formatN 0x7#4)
  | .setmute f => oneWord (formatB 0x8#4 f)
  | .rehash q rate => oneWord (formatH 0x9#4 q rate)
  | .csrw addr v => { cmd := [formatA 0xA#4 addr, v], samples := [], fills := [] }
  | .csrr addr => oneWord (formatA 0xB#4 addr)
  | .enqraw x => { cmd := [formatL 0xC#4 (BitVec.ofNat 16 x.length)], samples := x, fills := [] }
  | .fill k => { cmd := [], samples := [], fills := [k] }

/-- The instruction that stands first on the ports: a fill request if there is one, else the first whole
command. `none`: nothing whole stands there, or the command word is refused (R86). -/
def decodePorts (p : PortWords) : Option Instr :=
  match p.fills with
  | k :: _ => some (decodeFill k)
  | [] =>
    match takeFrame p.cmd p.samples with
    | none => none
    | some t => (decode t.frame).toOption

/-! ## Words as the opcode table numbers their bits (log 11) -/

/-- `n` samples read from the bits of `tail`, the first from its bits [15:0]. -/
def samplesOfBits (n tail : Nat) : List Sample :=
  (List.range n).map fun i => BitVec.ofNat 16 (tail >>> (16 * i))

/-- The port words of an instruction whose bits are `w`: up to 16 bits are a fill request (R88); more are
a command word in bits [31:0], with the data word of a CSRW or the samples of a payload in the bits above
(R90). Bits at and above `nbits` are 0. -/
def tablePorts (nbits w : Nat) : PortWords :=
  if nbits ≤ 16 then
    { cmd := [], samples := [], fills := [BitVec.ofNat 16 (w % 2 ^ nbits)] }
  else
    let bits := w % 2 ^ nbits
    let word : Word := BitVec.ofNat 32 bits
    let tail := bits >>> 32
    { cmd := word :: (if trailingWords word = 0 then [] else [BitVec.ofNat 32 tail])
      samples := samplesOfBits (trailingSamples word) tail
      fills := [] }

/-- The instruction the decoder reads from an instruction whose bits are `w`. -/
def decodeTableWord (nbits w : Nat) : Option Instr := decodePorts (tablePorts nbits w)

end Sys2Proof
end

