-- ==== Sys2Proof/Machine/Fetch.lean ====
section
/-! DEFINITION. What the next step is: which agent moves, and what it takes off its ports (10_state.md R21,
R50; 30_encoding.md R90; 60_exceptions.md R214, R219). -/

namespace Sys2Proof.Machine

/-- The producer has a step: a wait step, or a whole command on its ports (10_state.md R50, 60_exceptions.md
R219). -/
def State.producerReady (s : State) : Bool :=
  match s.phase with
  | .enqWait _ _ => true
  | .idle => (takeFrame s.cmdIn s.sampleIn).isSome

/-- The consumer has a step: a request is on the fill port (20_memory.md R69). -/
def State.consumerReady (s : State) : Bool := !s.fillReq.isEmpty

/-- Who goes first when both agents are ready: the state's own choice, else the free one (60_exceptions.md
R214; log 2). -/
def State.chosen (s : State) : Agent :=
  match s.sched with
  | a :: _ => a
  | [] => Config.schedule s.turn

/-- `s` with the choice of one contention used up (log 2). -/
def State.drawn (s : State) : State :=
  match s.sched with
  | _ :: rest => { s with sched := rest }
  | [] => { s with turn := s.turn + 1 }

/-- A step, chosen: what runs, and on which state. -/
inductive Move where
  /-- One step of a waiting enqueue (40_ring_buffer.md R115). -/
  | wait (s : State)
  /-- A decoded instruction, its words taken off the ports. -/
  | run (i : Instr) (s : State)
  /-- A command word that is refused, its trailing words taken and discarded (30_encoding.md R86, R97). -/
  | refuse (s : State)
  /-- No step is enabled. -/
  | stuck (r : Fault)
deriving DecidableEq, Repr

/-- The producer's step (30_encoding.md R90). -/
def State.producerMove (s : State) : Move :=
  match s.phase with
  | .enqWait _ _ => .wait s
  | .idle =>
    match takeFrame s.cmdIn s.sampleIn with
    | none => .stuck (if s.cmdIn.isEmpty then .portsEmpty else .awaitingTrailingWords)
    | some t =>
      match decode t.frame with
      | .ok i => .run i { s with cmdIn := t.cmdRest, sampleIn := t.sampleRest }
      | .error _ => .refuse { s with cmdIn := t.cmdRest, sampleIn := t.sampleRest }

/-- The consumer's step (30_encoding.md R88). -/
def State.consumerMove (s : State) : Move :=
  match s.fillReq with
  | [] => .stuck .portsEmpty
  | k :: rest => .run (decodeFill k) { s with fillReq := rest }

/-- The machine's step: the agent that is ready moves, and a choice is drawn only when both are
(60_exceptions.md R214). -/
def State.select (s : State) : Move :=
  if s.consumerReady then
    if s.producerReady then
      match s.chosen with
      | .producer => s.drawn.producerMove
      | .consumer => s.drawn.consumerMove
    else s.consumerMove
  else s.producerMove

/-- `s` with the words of one instruction first on the ports, so that the next step takes exactly it
(log 11): a command needs the producer IDLE, and an instruction that meets a ready agent on the other side
needs the first choice. -/
def State.placeWords (s : State) (p : PortWords) : State :=
  match p.fills with
  | k :: _ =>
    { s with
      fillReq := k :: s.fillReq
      sched := if s.producerReady then .consumer :: s.sched else s.sched }
  | [] =>
    { s with
      phase := .idle
      cmdIn := p.cmd ++ s.cmdIn
      sampleIn := p.samples ++ s.sampleIn
      sched := if s.consumerReady then .producer :: s.sched else s.sched }

end Sys2Proof.Machine
end

