-- ==== Sys2Proof/Machine/Agents.lean ====
section
/-! DEFINITION. The step of each agent (00_scope.md R8, R10; 60_exceptions.md R218). -/

namespace Sys2Proof.Machine

/-- What a chosen step does. -/
def Move.perform (m : Move) : Result :=
  match m with
  | .wait s => .next s.enqueueStep
  | .run i s => exec i s
  | .refuse s => .next s.refuseCommand
  | .stuck r => .fault r

/-- The producer's own step (00_scope.md R8). -/
def producerStep (s : State) : Result := s.producerMove.perform

/-- The consumer's own step (00_scope.md R8). -/
def consumerStep (s : State) : Result := s.consumerMove.perform

end Sys2Proof.Machine
end

