-- ==== Sys2Proof/Machine/Step.lean ====
section
/-! DEFINITION. One step of the machine: one step of the producer or of the consumer (00_scope.md R10). -/

namespace Sys2Proof.Machine

/-- One step: what the chosen agent does next (60_exceptions.md R214). -/
def step (s : State) : Host.Outcome State Fault Refusal := s.select.perform

/-- `s` with the instruction whose bits are `w` stored where the next step takes its instruction: on the
fill port, or on the command and sample-in ports (log 11). -/
def State.withFetchWord (s : State) (nbits w : Nat) : State := s.placeWords (tablePorts nbits w)

end Sys2Proof.Machine
end

