-- ==== Sys2Proof/Machine/Assembler.lean ====
section
/-! DEFINITION. The assembler: one command a line, operands refused outside their field width, and the
pseudo-instructions (30_encoding.md R95, R96). No step of the machine uses it. -/

namespace Sys2Proof.Machine

/-! ## Names -/

/-- The name of a read-only register (10_state.md R24). -/
def RoCsr.name (r : RoCsr) : String :=
  match r with
  | .id => "ID"
  | .version => "VERSION"
  | .capacity => "CAPACITY"
  | .scratch => "SCRATCH"
  | .chmax => "CHMAX"
  | .mode => "MODE"
  | .rbStart => "RB_START"
  | .rbEnd => "RB_END"
  | .rbCount => "RB_COUNT"
  | .nativeRate => "NATIVE_RATE"
  | .quality => "QUALITY"
  | .ratio => "RATIO"
  | .lastIn => "LAST_IN"
  | .lastOutreq => "LAST_OUTREQ"
  | .lastGen => "LAST_GEN"
  | .lastFq => "LAST_FQ"
  | .remainder => "REMAINDER"
  | .effRefresh => "EFF_REFRESH"
  | .lastFrames => "LAST_FRAMES"

/-- The name of a read-write register (10_state.md R24). -/
def RwCsr.name (r : RwCsr) : String :=
  match r with
  | .underrunCnt => "UNDERRUN_CNT"
  | .dropCnt => "DROP_CNT"
  | .acceptCnt => "ACCEPT_CNT"
  | .deliverCnt => "DELIVER_CNT"
  | .spc => "SPC"
  | .targetLow => "TARGET_LOW"
  | .maxocc => "MAXOCC"
  | .scale => "SCALE"
  | .hostTickMs => "HOST_TICK_MS"
  | .corrMax => "CORR_MAX"
  | .channels => "CHANNELS"
  | .waitMax => "WAIT_MAX"
  | .frametime => "FRAMETIME"
  | .refresh => "REFRESH"
  | .refreshMin => "REFRESH_MIN"
  | .refreshMax => "REFRESH_MAX"
  | .refreshFallback => "REFRESH_FALLBACK"
  | .frameAcc => "FRAME_ACC"
  | .frameMult => "FRAME_MULT"
  | .decim => "DECIM"

/-- The name of a register, which an ADDR operand may give in place of its address (30_encoding.md R95). -/
def Csr.name (c : Csr) : String :=
  match c with
  | .ro r => r.name
  | .rw r => r.name
  | .events => "EVENTS"

/-! ## Lines, their operands read as numbers -/

/-- One assembly line (30_encoding.md R95, R96). -/
inductive AsmLine where
  | openDev (devOk : Nat)
  | close
  | tick
  | queue (n : Nat) (x : List Int)
  | enqraw (n : Nat) (x : List Int)
  | setspeed (m : Nat)
  | pause
  | unpause
  | setmute (f : Nat)
  | rehash (q rate : Nat)
  | csrw (addr v : Nat)
  | csrr (addr : Nat)
  | fill (k : Nat)
  | mute
  | unmute
  | setFrametime (v : Nat)
  | setRefresh (v : Nat)
  | clrEvents
  | setFrameMult (m : Nat)
  | setDecim (m : Nat)
  | queue0
deriving DecidableEq, Repr

/-- An operand of `n` bits; refused outside its field width (30_encoding.md R95). -/
def operand (n v : Nat) : Option (BitVec n) := if v < 2 ^ n then some (BitVec.ofNat n v) else none

/-- A one-bit flag operand. -/
def flagOperand (v : Nat) : Option Bool := if v < 2 then some (decide (v = 1)) else none

/-- A payload of exactly `n` s16 values, n within the field N. -/
def payloadOperand (n : Nat) (x : List Int) : Option (List Sample) :=
  if n < 65536 ∧ x.length = n ∧ x.all (fun v => decide (-32768 ≤ v) && decide (v ≤ 32767)) = true then
    some (x.map (BitVec.ofInt 16))
  else none

/-- The instruction of a line; a pseudo-instruction gives its expansion (30_encoding.md R96). -/
def assemble (line : AsmLine) : Option Instr :=
  match line with
  | .openDev f => (flagOperand f).map .openDev
  | .close => some .close
  | .tick => some .tick
  | .queue n x => (payloadOperand n x).map .queue
  | .enqraw n x => (payloadOperand n x).map .enqraw
  | .setspeed m => (operand 8 m).map .setspeed
  | .pause => some .pause
  | .unpause => some .unpause
  | .setmute f => (flagOperand f).map .setmute
  | .rehash q rate => (operand 4 q).bind fun q' => (operand 20 rate).map (.rehash q')
  | .csrw a v => (operand 8 a).bind fun a' => (operand 32 v).map (.csrw a')
  | .csrr a => (operand 8 a).map .csrr
  | .fill k => (operand 16 k).map .fill
  | .mute => some (.setmute true)
  | .unmute => some (.setmute false)
  | .setFrametime v => (operand 32 v).map (.csrw 0x20#8)
  | .setRefresh v => (operand 32 v).map (.csrw 0x21#8)
  | .clrEvents => some (.csrw 0x06#8 0xFFF#32)
  | .setFrameMult m => (operand 32 m).map (.csrw 0x30#8)
  | .setDecim m => (operand 32 m).map (.csrw 0x31#8)
  | .queue0 => some (.queue [])

/-! ## Text (30_encoding.md R95) -/

/-- The value of a digit in the given base, in either case. -/
def digitValue (base : Nat) (c : Char) : Option Nat :=
  let n := c.toNat
  let v :=
    if 48 ≤ n ∧ n ≤ 57 then n - 48
    else if 65 ≤ n ∧ n ≤ 70 then n - 55
    else if 97 ≤ n ∧ n ≤ 102 then n - 87
    else base
  if v < base then some v else none

/-- Digits, most significant first, onto `acc`. -/
def parseDigits (base : Nat) : Nat → List Char → Option Nat
  | acc, [] => some acc
  | acc, c :: rest => (digitValue base c).bind fun d => parseDigits base (acc * base + d) rest

/-- A number, decimal or `0x` hexadecimal. -/
def parseNumber (t : List Char) : Option Nat :=
  match t with
  | [] => none
  | '0' :: 'x' :: [] => none
  | '0' :: 'x' :: hex => parseDigits 16 0 hex
  | _ => parseDigits 10 0 t

/-- A sample of a payload: a number, or a number behind a minus sign. -/
def parseSample (t : List Char) : Option Int :=
  match t with
  | '-' :: rest => (parseNumber rest).map fun n => -(n : Int)
  | _ => (parseNumber t).map fun n => (n : Int)

/-- The pieces of `t` between commas; nothing has no pieces. -/
def pieces (t : List Char) : List (List Char) := if t.isEmpty then [] else t.splitOn ','

/-- Every piece read by `f`, or none. -/
def readAll {α : Type} (f : List Char → Option α) : List (List Char) → Option (List α)
  | [] => some []
  | t :: rest => (f t).bind fun a => (readAll f rest).map (a :: ·)

/-- An ADDR operand: a CSR name or a number. -/
def parseAddr (t : List Char) : Option Nat :=
  match csrMap.find? fun c => c.name.toList = t with
  | some c => some c.addr.toNat
  | none => parseNumber t

/-- The brace that opens a payload. -/
def openBrace : Char := Char.ofNat 123

/-- The brace that closes a payload. -/
def closeBrace : Char := Char.ofNat 125

/-- The payload `x` of an operand text `n,` brace `s0,...,s(n-1)` brace. -/
def parsePayload (t : List Char) : Option (Nat × List Int) :=
  let count := t.takeWhile (· ≠ ',')
  match (t.dropWhile (· ≠ ',')).drop 1 with
  | [] => none
  | c :: inner =>
    if c = openBrace ∧ inner.getLast? = some closeBrace then
      (parseNumber count).bind fun n => (readAll parseSample (pieces inner.dropLast)).map fun x => (n, x)
    else none

/-- A line with no operand. -/
def noOperand (line : AsmLine) (t : List Char) : Option AsmLine := if t.isEmpty then some line else none

/-- A line from its mnemonic and its operand text, blanks removed. -/
def parseOperands (mnemonic : String) (t : List Char) : Option AsmLine :=
  if mnemonic = "OPEN" then (parseNumber t).map .openDev
  else if mnemonic = "CLOSE" then noOperand .close t
  else if mnemonic = "TICK" then noOperand .tick t
  else if mnemonic = "QUEUE" then (parsePayload t).map fun p => .queue p.1 p.2
  else if mnemonic = "ENQRAW" then (parsePayload t).map fun p => .enqraw p.1 p.2
  else if mnemonic = "SETSPEED" then (parseNumber t).map .setspeed
  else if mnemonic = "PAUSE" then noOperand .pause t
  else if mnemonic = "UNPAUSE" then noOperand .unpause t
  else if mnemonic = "SETMUTE" then (parseNumber t).map .setmute
  else if mnemonic = "REHASH" then
    match pieces t with
    | [q, rate] => (parseNumber q).bind fun a => (parseNumber rate).map (.rehash a)
    | _ => none
  else if mnemonic = "CSRW" then
    match pieces t with
    | [a, v] => (parseAddr a).bind fun n => (parseNumber v).map (.csrw n)
    | _ => none
  else if mnemonic = "CSRR" then (parseAddr t).map .csrr
  else if mnemonic = "FILL" then (parseNumber t).map .fill
  else if mnemonic = "MUTE" then noOperand .mute t
  else if mnemonic = "UNMUTE" then noOperand .unmute t
  else if mnemonic = "SETFRAMETIME" then (parseNumber t).map .setFrametime
  else if mnemonic = "SETREFRESH" then (parseNumber t).map .setRefresh
  else if mnemonic = "CLREVENTS" then noOperand .clrEvents t
  else if mnemonic = "SETFRAMEMULT" then (parseNumber t).map .setFrameMult
  else if mnemonic = "SETDECIM" then (parseNumber t).map .setDecim
  else if mnemonic = "QUEUE0" then noOperand .queue0 t
  else none

/-- A line of text: a mnemonic, then operands separated by commas; a semicolon begins a comment. -/
def parseLine (text : String) : Option AsmLine :=
  let t := (text.toList.takeWhile (· ≠ ';')).dropWhile (· = ' ')
  parseOperands (String.ofList (t.takeWhile (· ≠ ' '))) ((t.dropWhile (· ≠ ' ')).filter (· ≠ ' '))

/-- The instruction of a line of text, or a refusal (30_encoding.md R95). -/
def assembleText (text : String) : Option Instr := (parseLine text).bind assemble

end Sys2Proof.Machine
end

