-- ==== Sys2Proof/Machine/Bus.lean ====
section
/-! DEFINITION. The platform's side of the ports: a port carried over a byte-wide bus, and the CSRs mapped
into a byte-addressed space (20_memory.md R64, R70; 92_eei_decisions.md D33). Nothing inside the AAPB uses
these. -/

namespace Sys2Proof.Machine

/-- The bytes of a sample, least significant first (20_memory.md R64). -/
def sampleBytes (v : Sample) : List Byte := [v.extractLsb' 0 8, v.extractLsb' 8 8]

/-- The bytes of a command or CSR word, least significant first (20_memory.md R64). -/
def wordBytes (w : Word) : List Byte :=
  [w.extractLsb' 0 8, w.extractLsb' 8 8, w.extractLsb' 16 8, w.extractLsb' 24 8]

/-- Samples read back from the bytes of a bus; an incomplete last sample has not arrived. -/
def samplesOfBytes : List Byte → List Sample
  | b0 :: b1 :: rest => (b1 ++ b0) :: samplesOfBytes rest
  | _ => []

/-- Words read back from the bytes of a bus; an incomplete last word has not arrived. -/
def wordsOfBytes : List Byte → List Word
  | b0 :: b1 :: b2 :: b3 :: rest => (b3 ++ b2 ++ b1 ++ b0) :: wordsOfBytes rest
  | _ => []

/-- Where a platform that maps the CSRs into memory places CSR address `a` (20_memory.md R70). -/
def csrByteAddress (a : BitVec 8) : Nat := Config.aapbBase + 4 * a.toNat

end Sys2Proof.Machine
end

