-- ==== Sys2Proof/Machine/Ports.lean ====
section
/-! DEFINITION. What the host may do to the ports between two steps (44_engine_control.md R194, R195;
20_memory.md R61). A step never waits on any of these. -/

namespace Sys2Proof.Machine

/-- The host sends words, samples and fill requests, behind what already stands on the ports. It may send
any at any time (44_engine_control.md R195). -/
def State.send (s : State) (p : PortWords) : State :=
  { s with
    cmdIn := s.cmdIn ++ p.cmd
    sampleIn := s.sampleIn ++ p.samples
    fillReq := s.fillReq ++ p.fills }

/-- The producer takes the oldest response (10_state.md R51, 70_reset_and_hazards.md R256). -/
def State.takeResponse (s : State) : Option (Word × State) :=
  match s.responses with
  | [] => none
  | v :: rest => some (v, { s with responses := rest })

/-- The consumer takes the `n` oldest delivered samples (30_encoding.md R88). -/
def State.takeSamples (s : State) (n : Nat) : List Sample × State :=
  (s.fillData.take n, { s with fillData := s.fillData.drop n })

end Sys2Proof.Machine
end

