-- ==== Sys2Proof/Safety.lean ====
section
/-! DEFINITION. The terms in which claims speak of a good state and a safe run: the invariants the spec
gives the machine, the ring buffer seen as a queue, and the value of a binary32. -/

namespace Sys2Proof.Machine

/-! ## Invariants -/

/-- RB_START and RB_END are in 0..CAP-1, RB_COUNT is in 0..CAP, and
`(RB_END - RB_START) mod CAP == RB_COUNT mod CAP` (10_state.md R29). -/
abbrev State.RingInv (s : State) : Prop :=
  s.csr.rbStart.toNat < s.params.cap ∧ s.csr.rbEnd.toNat < s.params.cap ∧
    s.csr.rbCount.toNat ≤ s.params.cap ∧
    ((s.csr.rbEnd.toNat : Int) - (s.csr.rbStart.toNat : Int)) % (s.params.cap : Int)
      = (s.csr.rbCount.toNat : Int) % (s.params.cap : Int)

/-- Every divisor and every bounded configuration register holds a legal value (10_state.md R24, R31, R33,
R37, R39, R43, R46). -/
abbrev State.ConfigInv (s : State) : Prop :=
  s.csr.spc ≠ 0#16 ∧ s.csr.maxocc ≠ 0#8 ∧ s.csr.channels ≠ 0#4 ∧
    s.csr.channels.toNat ≤ s.params.chMax ∧ s.csr.nativeRate ≠ 0#20 ∧
    s.csr.refreshFallback ≠ 0#16 ∧ s.csr.frameMult ≠ 0#8 ∧ s.csr.decim ≠ 0#8

/-- RATIO is strictly positive and at most 131071 (10_state.md R36, R40; 41_resampler.md R134). -/
abbrev State.RatioInv (s : State) : Prop :=
  1 ≤ s.csr.ratio.toNat ∧ s.csr.ratio.toNat ≤ 131071

/-- `REMAINDER < EFF_REFRESH` when EFF_REFRESH is not 0, and REMAINDER = 0 when it is (10_state.md R44). -/
abbrev State.PacerInv (s : State) : Prop :=
  (s.csr.effRefresh ≠ 0#16 → s.csr.remainder < s.csr.effRefresh) ∧
    (s.csr.effRefresh = 0#16 → s.csr.remainder = 0#16)

/-- The phase is not IDLE. -/
def Phase.waiting (p : Phase) : Bool :=
  match p with
  | .idle => false
  | .enqWait _ _ => true

/-- The block S that waits; empty in IDLE. -/
def Phase.block (p : Phase) : List Sample :=
  match p with
  | .idle => []
  | .enqWait block _ => block

/-- The polls so far; 0 in IDLE. -/
def Phase.polls (p : Phase) : Nat :=
  match p with
  | .idle => 0
  | .enqWait _ polls => polls

/-- A waiting block has 1 to OUT_MAX samples, `polls` is at most WAIT_MAX, and the device is open: QUEUE and
ENQRAW enter the wait in ACTIVE only, and no command runs during it (10_state.md R21, R50). -/
abbrev State.PhaseInv (s : State) : Prop :=
  s.phase.waiting = true →
    s.csr.life = .active ∧ 1 ≤ s.phase.block.length ∧ s.phase.block.length ≤ s.params.outMax ∧
      s.phase.polls ≤ s.csr.waitMax.toNat

/-- The store is in canonical form and lists no index outside 0..CAP-1 (20_memory.md R60). -/
abbrev State.StoreInv (s : State) : Prop :=
  s.store.wf ∧ ∀ c ∈ s.store.cells, c.1 < s.params.cap

/-- Every invariant the spec gives the machine. -/
abbrev State.Inv (s : State) : Prop :=
  s.params.Legal ∧ s.RingInv ∧ s.ConfigInv ∧ s.RatioInv ∧ s.PacerInv ∧ s.PhaseInv ∧ s.StoreInv

/-- `ACCEPT_CNT = DELIVER_CNT + RB_COUNT`, mod 2^32 (20_memory.md R73). -/
abbrev State.Conserved (s : State) : Prop :=
  s.csr.acceptCnt = s.csr.deliverCnt + s.csr.rbCount

/-! ## Views -/

/-- The stored samples, oldest first: the occupied window (10_state.md R47). -/
def State.contents (s : State) : List Sample := s.window s.csr.rbCount.toNat

/-- The result is a next state. -/
def Completes (r : Result) : Prop := ∃ t, r = .next t

/-- `k` steps of the machine (the host's `Core.run`). -/
def runSteps (k : Nat) (s : State) : Result := Sys2Proof.core.run k s

/-- The consumer takes the step: a fill request is served. -/
def Move.isConsumers (m : Move) : Bool :=
  match m with
  | .run (.fill _) _ => true
  | _ => false

/-- How many of the next `k` steps from `s` are the producer's; a run that stops counts no further. -/
def producerSteps : Nat → State → Nat
  | 0, _ => 0
  | k + 1, s =>
    match step s with
    | .next t => (if s.select.isConsumers then 0 else 1) + producerSteps k t
    | .fault _ => 0
    | .refused _ => 0

/-- No whole command is on the producer's ports and no enqueue waits: only the consumer can move. -/
abbrev State.producerSilent (s : State) : Prop := s.phase = .idle ∧ s.cmdIn = []

/-- The sum of a list of words as numbers. -/
def sumWords (ws : List Word) : Nat := (ws.map BitVec.toNat).sum

/-- The bits of EVENTS that are set in `t` and not in `s`. -/
def newEvents (s t : State) : BitVec 12 := t.csr.events &&& ~~~s.csr.events

/-- `s` with the bits `bits` of EVENTS set as well. -/
abbrev State.withEvents (s : State) (bits : BitVec 12) : State :=
  { s with csr := { s.csr with events := s.csr.events ||| bits } }

/-- CLOSED allows the instruction: OPEN, CLOSE and CSRR of the commands (30_encoding.md R92), and FILL, which
is no command. -/
def Instr.allowedInClosed (i : Sys2Proof.Instr) : Bool :=
  match i with
  | .openDev _ => true
  | .close => true
  | .tick => false
  | .queue _ => false
  | .setspeed _ => false
  | .pause => false
  | .unpause => false
  | .setmute _ => false
  | .rehash _ _ => false
  | .csrw _ _ => false
  | .csrr _ => true
  | .enqraw _ => false
  | .fill _ => true

/-- The command word `w` has a reserved OP, or a 1 among the bits its format marks reserved (30_encoding.md
R81 to R87, R86 (1) and (2)). -/
abbrev reservedWord (w : Word) : Prop :=
  opcode w ∈ [0x0#4, 0xD#4, 0xE#4, 0xF#4] ∨
    opcode w ∈ [0x2#4, 0x3#4, 0x6#4, 0x7#4] ∧ w.extractLsb' 0 28 ≠ 0#28 ∨
    opcode w ∈ [0x1#4, 0x8#4] ∧ w.extractLsb' 1 27 ≠ 0#27 ∨
    opcode w ∈ [0x4#4, 0xC#4] ∧ w.extractLsb' 16 12 ≠ 0#12 ∨
    opcode w ∈ [0x5#4, 0xA#4, 0xB#4] ∧ w.extractLsb' 8 20 ≠ 0#20 ∨
    opcode w = 0x9#4 ∧ w.extractLsb' 0 4 ≠ 0#4

/-! ## The real number a binary32 stands for (IEEE 754; 41_resampler.md R137, R139) -/

/-- The biased exponent, bits [30:23]. -/
def exponentBits (y : Binary32) : Nat := (y.extractLsb' 23 8).toNat

/-- The fraction, bits [22:0]. -/
def fractionBits (y : Binary32) : Nat := (y.extractLsb' 0 23).toNat

/-- `y` is neither infinite nor NaN. -/
abbrev finite32 (y : Binary32) : Prop := exponentBits y ≠ 255

/-- The value of a finite binary32: a normal number is (2^23 + fraction) * 2^(exponent - 150), a zero or
subnormal one fraction * 2^(-149), with the sign of bit 31. -/
def binary32Value (y : Binary32) : ℚ :=
  let magnitude : ℚ :=
    if exponentBits y = 0 then (fractionBits y : ℚ) * (2 : ℚ) ^ (-149 : ℤ)
    else ((2 ^ 23 + fractionBits y : Nat) : ℚ) * (2 : ℚ) ^ ((exponentBits y : ℤ) - 150)
  if y.msb then -magnitude else magnitude

end Sys2Proof.Machine
end

