-- ==== Sys2Proof/Certificates/Slice0/Obligations.lean ====
section
/-! DEFINITION. The statements for the provers. Each docstring names the rule of spec/ it formalises. -/

open Sys2Proof Sys2Proof.Machine

/-! ## Encoding (30_encoding.md) -/

/-- 30_encoding.md section 2 (R80 to R91): what `encode` puts on the ports for a well-formed instruction is
decoded to that instruction, and a command's frame takes exactly its own words, whatever stands behind
them. -/
def Obligations.DecodeOfEncode : Prop :=
  ∀ i : Instr, i.WellFormed →
    decodePorts (encode i) = some i ∧
      ((encode i).fills = [] → ∀ (cs : List Word) (xs : List Sample), ∃ f : Frame,
        takeFrame ((encode i).cmd ++ cs) ((encode i).samples ++ xs)
            = some { frame := f, cmdRest := cs, sampleRest := xs } ∧
          decode f = .ok i)

/-- 30_encoding.md sections 1 and 2: every frame that decodes is the encoding of its instruction, so no bit
of an accepted word is dropped, and the instruction is well formed. -/
def Obligations.EncodeOfDecode : Prop :=
  ∀ (cmd : List Word) (smp : List Sample) (t : Framed) (i : Instr),
    takeFrame cmd smp = some t → decode t.frame = .ok i →
      i.WellFormed ∧ cmd = (encode i).cmd ++ t.cmdRest ∧ smp = (encode i).samples ++ t.sampleRest

/-- R86 (1) and (2), R93: the decoder refuses exactly the words with a reserved OP or a nonzero reserved
bit; the all-zero word is one of them. -/
def Obligations.DecodeRefusesReservedWords : Prop :=
  (∀ f : Frame, (∃ e, decode f = .error e) ↔ reservedWord f.word) ∧ reservedWord 0#32

/-- R90, R97: a command's extent depends on OP and bits [15:0] alone, refused or not. Its words are there
exactly when the ports hold that many; the frame takes exactly those, and leaves the rest. What the host
sends later (44_engine_control.md R195) does not change the frame. -/
def Obligations.FramingTakesTheWholeCommand : Prop :=
  ∀ (w : Word) (rest : List Word) (xs : List Sample),
    let d : Nat := if opcode w = 0xA#4 then 1 else 0
    let n : Nat := if opcode w = 0x4#4 ∨ opcode w = 0xC#4 then w.toNat % 65536 else 0
    (takeFrame (w :: rest) xs = none ↔ rest.length < d ∨ xs.length < n) ∧
      ∀ t : Framed, takeFrame (w :: rest) xs = some t →
        t.frame.word = w ∧ t.cmdRest = rest.drop d ∧ t.frame.payload = xs.take n ∧
          t.sampleRest = xs.drop n ∧ (d = 1 → rest.head? = some t.frame.data) ∧
          ∀ (cs : List Word) (ys : List Sample), takeFrame (w :: rest ++ cs) (xs ++ ys)
            = some { frame := t.frame, cmdRest := t.cmdRest ++ cs, sampleRest := t.sampleRest ++ ys }

/-- Words written out in spec/ decode to the commands it gives for them (44_engine_control.md sections 1 and 2;
41_resampler.md section 4; 43_speed_controller.md section 1; TICK and QUEUE 2 in 95_test_vectors.md section 3),
and a fill request of 30_encoding.md section 1, which is laid out as the model's choice of log 11 lays out a
table word. -/
def Obligations.SampleWordsDecode : Prop :=
  decode { word := 0x10000001#32, data := 0#32, payload := [] } = .ok (.openDev true) ∧
    decode { word := 0x30000000#32, data := 0#32, payload := [] } = .ok .tick ∧
    decode { word := 0x50000004#32, data := 0#32, payload := [] } = .ok (.setspeed 4#8) ∧
    decode { word := 0x920BB800#32, data := 0#32, payload := [] } = .ok (.rehash 2#4 48000#20) ∧
    decode { word := 0xA0000020#32, data := 0x0000412B#32, payload := [] }
      = .ok (.csrw 0x20#8 16683#32) ∧
    decode { word := 0x40000002#32, data := 0#32, payload := [1#16, 2#16] } = .ok (.queue [1#16, 2#16]) ∧
    decodeTableWord 16 512 = some (.fill 512#16)

/-! ## The step (10_state.md R21, 60_exceptions.md R214, R219) -/

/-- A step runs the decoded command: with the producer idle and a whole command on its ports that decodes to
`i`, the producer's step, and the machine's step when the consumer asks for nothing or the producer is
chosen (the schedule is the model's own, log 2), is `exec i` with the command's words taken off the ports. -/
def Obligations.StepRunsTheDecodedCommand : Prop :=
  ∀ (s : State) (t : Framed) (i : Instr), s.phase = .idle → takeFrame s.cmdIn s.sampleIn = some t →
    decode t.frame = .ok i →
      i.WellFormed ∧
        producerStep s = exec i { s with cmdIn := t.cmdRest, sampleIn := t.sampleRest } ∧
        (s.fillReq = [] → step s = exec i { s with cmdIn := t.cmdRest, sampleIn := t.sampleRest }) ∧
        (∀ rest, s.sched = .producer :: rest → s.fillReq ≠ [] →
          step s = exec i { s with cmdIn := t.cmdRest, sampleIn := t.sampleRest, sched := rest })

/-- A step runs a fill request: with a request K first on the fill port, the consumer's step, and the
machine's step when the producer has none or the consumer is chosen, is `exec (FILL K)` with the request
taken off the port. -/
def Obligations.StepRunsTheFillRequest : Prop :=
  ∀ (s : State) (k : Length) (ks : List Length), s.fillReq = k :: ks →
    consumerStep s = exec (.fill k) { s with fillReq := ks } ∧
      (s.producerReady = false → step s = exec (.fill k) { s with fillReq := ks }) ∧
      (∀ rest, s.sched = .consumer :: rest → s.producerReady = true →
        step s = exec (.fill k) { s with fillReq := ks, sched := rest })

/-- When both agents are ready, either may go first, and they run one after the other: the schedule (the
model's own choice, log 2) can name either, the first step completes and leaves the other agent ready, the
step after it is that agent's, and each step keeps the ring-buffer invariant of R29. -/
def Obligations.EitherAgentMayGoFirst : Prop :=
  ∀ (s : State) (rest : List Agent), s.producerReady = true → s.consumerReady = true →
    (∃ t u, step { s with sched := .producer :: .consumer :: rest } = .next t ∧
      producerStep { s with sched := .consumer :: rest } = .next t ∧ t.consumerReady = true ∧
      step t = .next u ∧
      consumerStep (if t.producerReady then { t with sched := rest } else t) = .next u ∧
      (s.params.Legal → s.RingInv → t.RingInv ∧ u.RingInv)) ∧
    (∃ t u, step { s with sched := .consumer :: .producer :: rest } = .next t ∧
      consumerStep { s with sched := .producer :: rest } = .next t ∧ t.producerReady = true ∧
      step t = .next u ∧
      producerStep (if t.consumerReady then { t with sched := rest } else t) = .next u ∧
      (s.params.Legal → s.RingInv → t.RingInv ∧ u.RingInv))

/-- R219, R223: a step completes unless the fill port is empty and the producer is idle without a whole
command; then no agent has a step, and the model stops by name (its own choice, log 7). No step is ever
refused. -/
def Obligations.StepStopsOnlyWithoutInput : Prop :=
  ∀ s : State,
    Completes (step s) ∨
      s.fillReq = [] ∧ s.phase = .idle ∧
        (s.cmdIn = [] ∧ step s = .fault .portsEmpty ∨
          s.cmdIn ≠ [] ∧ takeFrame s.cmdIn s.sampleIn = none ∧ step s = .fault .awaitingTrailingWords)

/-- R250: a FILL completes in one step in every state, and touches nothing of the producer's: of the whole
state only the fill port, RB_START, RB_COUNT, DELIVER_CNT, UNDERRUN_CNT and the UNDERRUN bit of EVENTS (bit 0)
may change. -/
def Obligations.ConsumerNeverWaits : Prop :=
  ∀ (s : State) (k : Length) (ks : List Length), s.fillReq = k :: ks →
    ∃ (xs : List Sample) (start count delivered underruns : Word) (underrun : Bool),
      xs.length = k.toNat ∧
      consumerStep s =
        .next
          { s with
            fillReq := ks
            fillData := s.fillData ++ xs
            csr :=
              { s.csr with
                rbStart := start
                rbCount := count
                deliverCnt := delivered
                underrunCnt := underruns
                events := s.csr.events ||| (if underrun then 0x001#12 else 0#12) } }

/-- R86: a command word with a reserved OP, a nonzero reserved bit, or an OP that CLOSED does not allow
raises BAD_CMD (bit 3) and changes nothing else; its trailing words are taken. -/
def Obligations.RefusedWordRaisesBadCmdAlone : Prop :=
  ∀ (s : State) (t : Framed), s.phase = .idle → takeFrame s.cmdIn s.sampleIn = some t →
    (reservedWord t.frame.word ∨
      s.csr.life = .closed ∧ opcode t.frame.word ∉ [0x1#4, 0x2#4, 0xB#4]) →
      producerStep s
        = .next ({ s with cmdIn := t.cmdRest, sampleIn := t.sampleRest }.withEvents 0x008#12)

/-! ## Reset and lifecycle (70_reset_and_hazards.md, 44_engine_control.md) -/

/-- R240: the power-on state. Every CSR reads its reset value, MODE reads 0 (CLOSED, not paused, not
muted), EVENTS is 0, the phase is IDLE, there is no response and SIGMA is SRC_INIT(0). -/
def Obligations.PowerOnState : Prop :=
  (∀ p ∈ ([(0x00, 0x41415042), (0x01, 1), (0x02, 16384), (0x03, 0x20001000), (0x04, 2), (0x05, 0),
      (0x06, 0), (0x08, 0), (0x09, 0), (0x0A, 0), (0x0B, 0), (0x0C, 0), (0x0D, 0), (0x0E, 0),
      (0x10, 512), (0x11, 3), (0x12, 3), (0x13, 1), (0x14, 16), (0x15, 1310), (0x16, 1), (0x17, 1000),
      (0x18, 48000), (0x19, 0), (0x1A, 0x00010000), (0x1B, 0), (0x1C, 0), (0x1D, 0), (0x1E, 0),
      (0x20, 16683), (0x21, 60), (0x22, 1), (0x23, 1000), (0x24, 60), (0x25, 0), (0x26, 0), (0x27, 0),
      (0x28, 0), (0x30, 1), (0x31, 1)] : List (BitVec 8 × Word)),
    exec (.csrr p.1) State.reset = .next { State.reset with responses := [p.2] }) ∧
    State.reset.csr.life = .closed ∧ State.reset.csr.paused = false ∧ State.reset.csr.muted = false ∧
    State.reset.csr.events = 0#12 ∧ State.reset.phase = .idle ∧ State.reset.responses = [] ∧
    State.reset.sigma = Config.srcInit 0#4

/-- R241: OPEN, from every state, puts the block back into the power-on state but for LIFE and the STORE;
the parameters and the ports are not touched. -/
def Obligations.OpenReturnsToPowerOn : Prop :=
  ∀ (s : State) (f : Bool),
    exec (.openDev f) s =
      .next
        { s with
          csr := { State.reset.csr with life := if f then .active else .nullsink }
          sigma := State.reset.sigma
          phase := .idle
          responses := [] }

/-- R191: CLOSE sets LIFE to CLOSED and keeps every other CSR, which CSRR still reads as before (but for MODE,
address 0x05, which shows LIFE); every command but OPEN, CLOSE and CSRR is then refused and those three are
not, and a FILL delivers silence and changes nothing. -/
def Obligations.CloseCommand : Prop :=
  ∀ s : State, ∃ t : State, t = { s with csr := { s.csr with life := .closed } } ∧
    exec .close s = .next t ∧
    (∀ (a : BitVec 8) (v : Word), a ≠ 0x05#8 →
      exec (.csrr a) s = .next { s with responses := s.responses ++ [v] } →
        exec (.csrr a) t = .next { t with responses := t.responses ++ [v] }) ∧
    (∀ i : Instr, Instr.allowedInClosed i = false → exec i t = .next (t.withEvents 0x008#12)) ∧
    (∀ i : Instr, Instr.allowedInClosed i = true →
      ∃ u, exec i t = .next u ∧ newEvents t u &&& 0x008#12 = 0#12) ∧
    (∀ k : Length,
      exec (.fill k) t = .next { t with fillData := t.fillData ++ List.replicate k.toNat 0#16 })

/-- R92: in CLOSED every command but OPEN, CLOSE and CSRR is refused, and those three are not; in ACTIVE and
NULLSINK no command is. -/
def Obligations.LifecycleLegality : Prop :=
  ∀ (i : Instr) (s : State),
    (s.csr.life = .closed → Instr.allowedInClosed i = false →
      exec i s = .next (s.withEvents 0x008#12)) ∧
    (s.csr.life ≠ .closed ∨ Instr.allowedInClosed i = true → ∃ t, exec i s = .next t ∧
      newEvents s t &&& 0x008#12 = 0#12)

/-- 44_engine_control.md section 1 (OPEN 0) and 41_resampler.md section 1: in NULLSINK a QUEUE and an ENQRAW
change nothing, and a FILL delivers silence and changes nothing; outside CLOSED a QUEUE of no samples changes
nothing. -/
def Obligations.NullSinkAndEmptyQueueNoOps : Prop :=
  ∀ s : State,
    (s.csr.life = .nullsink →
      (∀ x, exec (.queue x) s = .next s) ∧ (∀ x, exec (.enqraw x) s = .next s) ∧
        ∀ k : Length,
          exec (.fill k) s = .next { s with fillData := s.fillData ++ List.replicate k.toNat 0#16 }) ∧
    (s.csr.life ≠ .closed → exec (.queue []) s = .next s)

/-- R27: LIFE changes only by OPEN and CLOSE, PAUSED only by PAUSE, UNPAUSE and OPEN, MUTED only by SETMUTE
and OPEN. -/
def Obligations.ModeChangesOnlyByItsCommands : Prop :=
  ∀ s t : State, step s = .next t →
    (t.csr.life ≠ s.csr.life →
      ∃ u, s.select = .run .close u ∨ ∃ f, s.select = .run (.openDev f) u) ∧
    (t.csr.paused ≠ s.csr.paused →
      ∃ u, s.select = .run .pause u ∨ s.select = .run .unpause u ∨ ∃ f, s.select = .run (.openDev f) u) ∧
    (t.csr.muted ≠ s.csr.muted →
      ∃ u f, s.select = .run (.setmute f) u ∨ s.select = .run (.openDev f) u)

/-! ## CSR access (10_state.md R24 to R26, R42) -/

/-- R26: a CSRR of a mapped address responds with the register's value, its field zero-extended; of any
other address it responds 0 and raises BAD_ARG (bit 4). Nothing else changes. In every lifecycle state. -/
def Obligations.CsrrReadsTheMap : Prop :=
  ∀ s : State,
    let c := s.csr
    let life : Nat := match c.life with | .closed => 0 | .active => 1 | .nullsink => 2
    let map : List (BitVec 8 × Nat) :=
      [(0x00, 0x41415042), (0x01, 1), (0x02, s.params.cap),
        (0x03, s.params.outMax % 65536 * 65536 + s.params.inMax % 65536), (0x04, s.params.chMax % 16),
        (0x05, life + 4 * c.paused.toNat + 8 * c.muted.toNat), (0x06, c.events.toNat),
        (0x08, c.rbStart.toNat), (0x09, c.rbEnd.toNat), (0x0A, c.rbCount.toNat),
        (0x0B, c.underrunCnt.toNat), (0x0C, c.dropCnt.toNat), (0x0D, c.acceptCnt.toNat),
        (0x0E, c.deliverCnt.toNat), (0x10, c.spc.toNat), (0x11, c.targetLow.toNat),
        (0x12, c.maxocc.toNat), (0x13, c.scale.toNat), (0x14, c.hostTickMs.toNat),
        (0x15, c.corrMax.toNat), (0x16, c.channels.toNat), (0x17, c.waitMax.toNat),
        (0x18, c.nativeRate.toNat), (0x19, c.quality.toNat), (0x1A, c.ratio.toNat),
        (0x1B, c.lastIn.toNat), (0x1C, c.lastOutreq.toNat), (0x1D, c.lastGen.toNat),
        (0x1E, c.lastFq.toNat), (0x20, c.frametime.toNat), (0x21, c.refresh.toNat),
        (0x22, c.refreshMin.toNat), (0x23, c.refreshMax.toNat), (0x24, c.refreshFallback.toNat),
        (0x25, c.remainder.toNat), (0x26, c.effRefresh.toNat), (0x27, c.lastFrames.toNat),
        (0x28, c.frameAcc.toNat), (0x30, c.frameMult.toNat), (0x31, c.decim.toNat)]
    (∀ p ∈ map,
      exec (.csrr p.1) s = .next { s with responses := s.responses ++ [BitVec.ofNat 32 p.2] }) ∧
    (∀ a : BitVec 8, a ∉ map.map Prod.fst →
      exec (.csrr a) s = .next { s.withEvents 0x010#12 with responses := s.responses ++ [0#32] })

/-- R25 and R42: the four cases of a CSRW, outside CLOSED. A legal value is taken, a FRAMETIME that changes
also clears REMAINDER; EVENTS clears the bits written 1; an illegal value, a read-only register and an
unmapped address raise BAD_ARG (bit 4) and write nothing. -/
def Obligations.CsrwFourCases : Prop :=
  ∀ (s : State) (v : Word), s.csr.life ≠ .closed →
    let c := s.csr
    let n := v.toNat
    let rw : List (BitVec 8 × Nat × Nat × Csrs) :=
      [(0x0B, 0, 0xFFFFFFFF, { c with underrunCnt := v }), (0x0C, 0, 0xFFFFFFFF, { c with dropCnt := v }),
        (0x0D, 0, 0xFFFFFFFF, { c with acceptCnt := v }),
        (0x0E, 0, 0xFFFFFFFF, { c with deliverCnt := v }),
        (0x10, 1, 65535, { c with spc := BitVec.ofNat 16 n }),
        (0x11, 0, 255, { c with targetLow := BitVec.ofNat 8 n }),
        (0x12, 1, 255, { c with maxocc := BitVec.ofNat 8 n }),
        (0x13, 0, 65535, { c with scale := BitVec.ofNat 16 n }),
        (0x14, 0, 65535, { c with hostTickMs := BitVec.ofNat 16 n }),
        (0x15, 0, 65535, { c with corrMax := BitVec.ofNat 16 n }),
        (0x16, 1, s.params.chMax, { c with channels := BitVec.ofNat 4 n }),
        (0x17, 0, 0xFFFFFFFF, { c with waitMax := v }),
        (0x20, 0, 0xFFFFFFFF,
          { c with frametime := v, remainder := if v = c.frametime then c.remainder else 0#16 }),
        (0x21, 0, 65535, { c with refresh := BitVec.ofNat 16 n }),
        (0x22, 0, 65535, { c with refreshMin := BitVec.ofNat 16 n }),
        (0x23, 0, 65535, { c with refreshMax := BitVec.ofNat 16 n }),
        (0x24, 1, 65535, { c with refreshFallback := BitVec.ofNat 16 n }),
        (0x28, 0, 0xFFFFFFFF, { c with frameAcc := v }),
        (0x30, 1, 255, { c with frameMult := BitVec.ofNat 8 n }),
        (0x31, 1, 255, { c with decim := BitVec.ofNat 8 n })]
    (∀ r ∈ rw,
      exec (.csrw r.1 v) s =
        .next (if r.2.1 ≤ n ∧ n ≤ r.2.2.1 then { s with csr := r.2.2.2 } else s.withEvents 0x010#12)) ∧
    exec (.csrw 0x06#8 v) s
      = .next { s with csr := { c with events := c.events &&& ~~~BitVec.ofNat 12 n } } ∧
    (∀ a : BitVec 8, a ≠ 0x06#8 → a ∉ rw.map Prod.fst →
      exec (.csrw a v) s = .next (s.withEvents 0x010#12))

/-- 10_state.md section 2 (R25 (3), R26): a value that a CSRW accepts is the value the next CSRR of that
read-write register responds: no bit of a legal value is lost. -/
def Obligations.CsrwThenCsrrReadsBack : Prop :=
  ∀ (s : State) (r : RwCsr) (v : Word), s.csr.life ≠ .closed → s.params.Legal →
    (r.range s.params).1 ≤ v.toNat → v.toNat ≤ (r.range s.params).2 →
      ∃ t, exec (.csrw r.addr v) s = .next t ∧ newEvents s t = 0#12 ∧
        exec (.csrr r.addr) t = .next { t with responses := t.responses ++ [v] }

/-- 10_state.md R28: an EVENTS bit that is set stays set through every step but a CSRW to EVENTS that writes
1 to it, and OPEN. -/
def Obligations.EventsAreSticky : Prop :=
  ∀ (s t : State) (n : Nat), step s = .next t → s.csr.events.getLsbD n = true →
    t.csr.events.getLsbD n = false →
      (∃ v u, s.select = .run (.csrw 0x06#8 v) u ∧ v.getLsbD n = true) ∨
        ∃ f u, s.select = .run (.openDev f) u

/-- R213: the events each instruction can raise. A refused word raises BAD_CMD alone, a rejected QUEUE or
ENQRAW QUEUE_REJ alone. -/
def Obligations.EventsOfEachInstruction : Prop :=
  ∀ (i : Instr) (s t : State), exec i s = .next t →
    let may : BitVec 12 :=
      if s.csr.life = .closed ∧ Instr.allowedInClosed i = false then 0x008#12
      else match i with
        | .openDev _ => 0x000#12
        | .close => 0x000#12
        | .tick => 0x0C0#12
        | .queue x => if s.params.inMax < x.length then 0x020#12 else 0xB00#12
        | .setspeed _ => 0x010#12
        | .pause => 0x000#12
        | .unpause => 0x000#12
        | .setmute _ => 0x000#12
        | .rehash _ _ => 0x004#12
        | .csrw _ _ => 0x010#12
        | .csrr _ => 0x010#12
        | .enqraw x => if s.params.outMax < x.length then 0x020#12 else 0x000#12
        | .fill _ => 0x001#12
    newEvents s t &&& ~~~may = 0#12 ∧
      newEvents s s.enqueueStep &&& ~~~0x402#12 = 0#12

/-- R51, R256: a TICK or CSRR that is not refused adds exactly one response behind the others, OPEN empties
the queue, and nothing else touches it. -/
def Obligations.ResponsesInCommandOrder : Prop :=
  ∀ (i : Instr) (s t : State), exec i s = .next t →
    match i with
    | .tick =>
      if s.csr.life = .closed then t.responses = s.responses else ∃ v, t.responses = s.responses ++ [v]
    | .csrr _ => ∃ v, t.responses = s.responses ++ [v]
    | .openDev _ => t.responses = []
    | _ => t.responses = s.responses ∧ s.enqueueStep.responses = s.responses

/-! ## The ring buffer (40_ring_buffer.md, 20_memory.md) -/

/-- R112: FILL. In ACTIVE and not paused, the `min(K, RB_COUNT)` oldest stored samples and then zeros are
delivered, the indices and counters move, and UNDERRUN is raised when fewer than K were stored; otherwise K
zeros are delivered and nothing changes. -/
def Obligations.FillCommand : Prop :=
  ∀ (s : State) (k : Length), s.params.Legal →
    let c := s.csr
    let r := min k.toNat c.rbCount.toNat
    let stored := (List.range r).map fun i => s.store.read ((c.rbStart.toNat + i) % s.params.cap)
    exec (.fill k) s =
      .next
        (if c.life = .active ∧ c.paused = false then
          { s with
            fillData := s.fillData ++ stored ++ List.replicate (k.toNat - r) 0#16
            csr :=
              { c with
                rbStart := BitVec.ofNat 32 ((c.rbStart.toNat + r) % s.params.cap)
                rbCount := c.rbCount - BitVec.ofNat 32 r
                deliverCnt := c.deliverCnt + BitVec.ofNat 32 r
                underrunCnt := if r < k.toNat then c.underrunCnt + 1#32 else c.underrunCnt
                events := if r < k.toNat then c.events ||| 0x001#12 else c.events } }
        else { s with fillData := s.fillData ++ List.replicate k.toNat 0#16 })

/-- R113: every FILL of K delivers exactly K samples, from every state. -/
def Obligations.ExactFill : Prop :=
  ∀ (s : State) (k : Length), ∃ t xs, exec (.fill k) s = .next t ∧
    t.fillData = s.fillData ++ xs ∧ xs.length = k.toNat

/-- R114: with RB_COUNT = c and no enqueue in between, the first `c div K` FILLs of K deliver stored samples
only; the next delivers the `c mod K` that are left and then `K - (c mod K)` zeros. -/
def Obligations.UnderrunOnset : Prop :=
  ∀ (s : State) (k : Length) (more : List Length), 0 < k.toNat → s.params.Legal → s.RingInv →
    s.producerSilent → s.csr.life = .active → s.csr.paused = false →
    s.fillReq = List.replicate (s.csr.rbCount.toNat / k.toNat + 1) k ++ more →
      let n := s.csr.rbCount.toNat / k.toNat
      let m := s.csr.rbCount.toNat % k.toNat
      ∃ t u, runSteps n s = .next t ∧ step t = .next u ∧
        t.fillData = s.fillData ++ s.contents.take (n * k.toNat) ∧
        t.csr.underrunCnt = s.csr.underrunCnt ∧
        u.fillData = t.fillData ++ s.contents.drop (n * k.toNat) ++ List.replicate (k.toNat - m) 0#16 ∧
        (s.contents.drop (n * k.toNat)).length = m ∧
        u.csr.rbCount = 0#32 ∧ u.csr.underrunCnt = s.csr.underrunCnt + 1#32

/-- R115: one step of a waiting enqueue. It commits unless the store holds more than LIMIT - min(g, LIMIT)
samples; a held block polls while `polls < WAIT_MAX`, and then commits with WAIT_TIMEOUT (bit 10). -/
def Obligations.EnqueueWaitStep : Prop :=
  ∀ (s : State) (block : List Sample) (polls : Nat), s.phase = .enqWait block polls →
    let limit := min s.params.cap (s.csr.maxocc.toNat * s.csr.spc.toNat)
    let g := block.length
    producerStep s =
      .next
        (if s.csr.rbCount.toNat ≤ limit - min g limit then s.commit block
        else if polls < s.csr.waitMax.toNat then { s with phase := .enqWait block (polls + 1) }
        else (s.withEvents 0x400#12).commit block)

/-- R117: the commit of a block S of g samples stores the first `a = min(g, CAP - RB_COUNT)` of them behind
RB_END and leaves every other element of the store, drops the rest, and returns to IDLE; nothing else
changes. -/
def Obligations.EnqueueCommit : Prop :=
  ∀ (s : State) (block : List Sample), s.params.Legal → s.RingInv → s.store.wf →
    let cap := s.params.cap
    let c := s.csr
    let g := block.length
    let a := min g (cap - c.rbCount.toNat)
    let t := s.commit block
    (∀ i, i < a → t.store.read ((c.rbEnd.toNat + i) % cap) = block.getD i 0#16) ∧
      (∀ j, (∀ i, i < a → j ≠ (c.rbEnd.toNat + i) % cap) → t.store.read j = s.store.read j) ∧
      t = { s with
        store := t.store
        phase := .idle
        csr :=
          { c with
            rbEnd := BitVec.ofNat 32 ((c.rbEnd.toNat + a) % cap)
            rbCount := c.rbCount + BitVec.ofNat 32 a
            acceptCnt := c.acceptCnt + BitVec.ofNat 32 a
            dropCnt := if a < g then c.dropCnt + BitVec.ofNat 32 (g - a) else c.dropCnt
            events := if a < g then c.events ||| 0x002#12 else c.events } } ∧
      t.csr.rbCount.toNat = c.rbCount.toNat + a

/-- R118: ENQRAW. Outside CLOSED: nothing in NULLSINK; QUEUE_REJ (bit 5) above OUT_MAX; nothing for N = 0;
else the payload, as it is, waits to commit, and nothing else changes. In CLOSED it is refused. -/
def Obligations.EnqrawCommand : Prop :=
  ∀ (s : State) (x : List Sample),
    (s.csr.life ≠ .closed →
      exec (.enqraw x) s =
        .next
          (if s.csr.life = .nullsink then s
          else if s.params.outMax < x.length then s.withEvents 0x020#12
          else if x = [] then s
          else { s with phase := .enqWait x 0 })) ∧
      (s.csr.life = .closed → exec (.enqraw x) s = .next (s.withEvents 0x008#12))

/-- 60_exceptions.md section 5, 40_ring_buffer.md section 2: a waiting enqueue commits within
`WAIT_MAX - polls + 1` of the producer's steps, whatever FILLs run in between: after some steps of the machine,
all of them polls or the pending FILLs, the block still waits, and the next step commits it, with or without
WAIT_TIMEOUT. The bound holds under every schedule. -/
def Obligations.EnqueueWaitEnds : Prop :=
  ∀ (s : State) (block : List Sample) (polls : Nat), s.phase = .enqWait block polls →
    ∃ (n : Nat) (t u v : State), runSteps n s = .next t ∧ t.phase.waiting = true ∧ t.phase.block = block ∧
      t.select = .wait u ∧ step t = .next v ∧
      (v = u.commit block ∨ v = (u.raise .waitTimeout).commit block) ∧ v.phase = .idle ∧
      producerSteps (n + 1) s ≤ s.csr.waitMax.toNat - polls + 1 ∧
      (n + 1) + t.fillReq.length = producerSteps (n + 1) s + s.fillReq.length

/-- R29: the ring-buffer invariant holds after every step from a state that has it, and only FILL, the
enqueue commit and OPEN write RB_START, RB_END and RB_COUNT. -/
def Obligations.RingIndexInvariant : Prop :=
  (∀ s t : State, s.params.Legal → s.RingInv → step s = .next t → t.RingInv) ∧
    ∀ s t : State, step s = .next t →
      (t.csr.rbStart ≠ s.csr.rbStart ∨ t.csr.rbEnd ≠ s.csr.rbEnd ∨ t.csr.rbCount ≠ s.csr.rbCount) →
        (∃ k u, s.select = .run (.fill k) u) ∨ (∃ f u, s.select = .run (.openDev f) u) ∨
          ∃ u, s.select = .wait u ∧ t.phase = .idle

/-- R72: the ring buffer is a queue. A FILL in ACTIVE and not paused delivers the oldest stored samples in
order, then only silence, and leaves the rest; any other FILL leaves the stored samples. A commit appends the
first samples of its block, OPEN empties the queue, and every other instruction, a refused word and a poll
leave the stored samples as they are. -/
def Obligations.RingBufferIsAFifo : Prop :=
  ∀ s : State, s.params.Legal → s.RingInv → s.store.wf →
    (∀ k : Length, s.csr.life = .active → s.csr.paused = false →
      ∃ t, exec (.fill k) s = .next t ∧ t.contents = s.contents.drop k.toNat ∧
        t.fillData = s.fillData ++ s.contents.take k.toNat
          ++ List.replicate (k.toNat - s.contents.length) 0#16) ∧
    (∀ k : Length, s.csr.life ≠ .active ∨ s.csr.paused = true →
      ∃ t, exec (.fill k) s = .next t ∧ t.contents = s.contents ∧
        t.fillData = s.fillData ++ List.replicate k.toNat 0#16) ∧
    (∀ block : List Sample,
      (s.commit block).contents = s.contents ++ block.take (s.params.cap - s.contents.length)) ∧
    (∀ f : Bool, ∃ t, exec (.openDev f) s = .next t ∧ t.contents = []) ∧
    (∀ (i : Instr) (t : State), exec i s = .next t → (∀ k, i ≠ .fill k) → (∀ f, i ≠ .openDev f) →
      t.contents = s.contents) ∧
    (∀ u t : State, s.select = .refuse u → step s = .next t → t.contents = s.contents) ∧
    (s.enqueueStep.phase ≠ .idle → s.enqueueStep.contents = s.contents)

/-- R73: `ACCEPT_CNT = DELIVER_CNT + RB_COUNT` (mod 2^32) is kept by every step but a CSRW to one of the two
counters, and each commit of g samples adds g to ACCEPT_CNT and DROP_CNT together. -/
def Obligations.SampleConservation : Prop :=
  (∀ s t : State, s.params.Legal → s.RingInv → s.Conserved → step s = .next t →
      (∀ v u, s.select ≠ .run (.csrw 0x0D#8 v) u ∧ s.select ≠ .run (.csrw 0x0E#8 v) u) → t.Conserved) ∧
    State.reset.Conserved ∧
    ∀ (s : State) (block : List Sample),
      ((s.commit block).csr.acceptCnt - s.csr.acceptCnt) + ((s.commit block).csr.dropCnt - s.csr.dropCnt)
        = BitVec.ofNat 32 block.length

/-- R47: the store outside the occupied window is never observable. Two states that differ only in the store
and agree on the occupied window take the same step, and agree on the new window. -/
def Obligations.UnoccupiedStoreIsUnobservable : Prop :=
  ∀ (s t : State) (m : Store), s.params.Legal → s.RingInv → s.store.wf → m.wf →
    ({ s with store := m } : State).contents = s.contents → step s = .next t →
      ∃ m', step { s with store := m } = .next { t with store := m' } ∧
        ({ t with store := m' } : State).contents = t.contents

/-! ## The resampler (41_resampler.md) -/

/-- R130: an accepted QUEUE with N > 0 in ACTIVE. The decimated block is converted by SRC with the ratio and
the requested count of R134 and R135; SIGMA, RATIO and the LAST registers are written, the events of the
clamps are raised, and the output block waits to commit unless it is empty. -/
def Obligations.QueueCommand : Prop :=
  ∀ (s : State) (x : List Sample), s.csr.life = .active → s.params.Legal → s.ConfigInv → x ≠ [] →
    x.length ≤ s.params.inMax →
      let c := s.csr
      let xd := decimate x c.decim.toNat c.channels.toNat
      let n1 := xd.length
      let fq := c.rbCount.toNat / c.spc.toNat
      let low := c.targetLow.toNat
      let raw := (c.nativeRate.toNat + c.hostTickMs.toNat * (low - fq)) * 65536 / c.nativeRate.toNat
      let ratio := if fq < low then
        min (max raw (65536 - c.corrMax.toNat)) (65536 + c.corrMax.toNat) else 65536
      let want := if fq < low then n1 + (low - fq) * c.scale.toNat else n1
      let oreq := min want s.params.outMax
      let made := Config.src s.sigma c.quality c.channels (BitVec.ofNat 32 ratio) oreq (xd.map toWork)
      let g := min made.2.length s.params.outMax
      let block := (made.2.take g).map fun y => if c.muted = true then 0#16 else sat16 y
      exec (.queue x) s =
        .next
          { s with
            sigma := made.1
            phase := if g = 0 then s.phase else .enqWait block 0
            csr :=
              { c with
                ratio := BitVec.ofNat 32 ratio
                lastIn := BitVec.ofNat 16 n1
                lastOutreq := BitVec.ofNat 16 oreq
                lastGen := BitVec.ofNat 16 g
                lastFq := BitVec.ofNat 32 fq
                events := c.events
                  ||| (if fq < low ∧ ratio ≠ raw then 0x200#12 else 0#12)
                  ||| (if s.params.outMax < want then 0x100#12 else 0#12)
                  ||| (if s.params.outMax < made.2.length then 0x800#12 else 0#12) } }

/-- R131: a QUEUE with N > IN_MAX raises QUEUE_REJ (bit 5) and changes nothing else; the producer's step
takes its word and payload off the ports and discards them. -/
def Obligations.QueueRejection : Prop :=
  ∀ (s : State) (x : List Sample), s.csr.life = .active → s.params.inMax < x.length →
    exec (.queue x) s = .next (s.withEvents 0x020#12) ∧
      ∀ t : Framed, s.phase = .idle → takeFrame s.cmdIn s.sampleIn = some t →
        decode t.frame = .ok (.queue x) →
          producerStep s
            = .next ({ s with cmdIn := t.cmdRest, sampleIn := t.sampleRest }.withEvents 0x020#12)

/-- R143: after an accepted QUEUE, `|RATIO - 65536| <= CORR_MAX` and RATIO > 0, and RATIO is exactly 65536
when `fq >= TARGET_LOW`. -/
def Obligations.BoundedCorrection : Prop :=
  ∀ (s : State) (x : List Sample), s.csr.life = .active → s.ConfigInv → x ≠ [] →
    x.length ≤ s.params.inMax →
      ∃ t, exec (.queue x) s = .next t ∧
        t.csr.ratio.toNat ≤ 65536 + s.csr.corrMax.toNat ∧
        65536 ≤ t.csr.ratio.toNat + s.csr.corrMax.toNat ∧ 0 < t.csr.ratio.toNat ∧
        (s.csr.targetLow.toNat ≤ s.csr.rbCount.toNat / s.csr.spc.toNat → t.csr.ratio = 65536#32)

/-- R142: the correction depends on the current occupancy alone. Two states with the same occupancy,
configuration and parameters, whatever their converter state, store, RATIO and history, get the same RATIO
and request from the same block; the correction only lengthens. -/
def Obligations.ProportionalOnlyControl : Prop :=
  ∀ (s u : State) (x : List Sample), s.csr.life = .active → u.csr.life = .active → s.ConfigInv →
    x ≠ [] → x.length ≤ s.params.inMax → s.params.Legal → u.params = s.params →
    u.csr.rbCount = s.csr.rbCount → u.csr.spc = s.csr.spc → u.csr.targetLow = s.csr.targetLow →
    u.csr.nativeRate = s.csr.nativeRate → u.csr.hostTickMs = s.csr.hostTickMs →
    u.csr.corrMax = s.csr.corrMax → u.csr.scale = s.csr.scale → u.csr.decim = s.csr.decim →
    u.csr.channels = s.csr.channels →
      ∃ t w, exec (.queue x) s = .next t ∧ exec (.queue x) u = .next w ∧
        w.csr.ratio = t.csr.ratio ∧ w.csr.lastOutreq = t.csr.lastOutreq ∧
        65536 ≤ t.csr.ratio.toNat ∧
        min (decimate x s.csr.decim.toNat s.csr.channels.toNat).length s.params.outMax
          ≤ t.csr.lastOutreq.toNat

/-- R153: a muted QUEUE does everything an unmuted one does, but that the block it waits to commit holds
zeros: the same registers, converter state and block length. -/
def Obligations.MuteOnlyZeroesTheBlock : Prop :=
  ∀ (s : State) (x : List Sample), s.csr.life = .active → s.csr.muted = false → s.ConfigInv →
    s.phase = .idle → x ≠ [] → x.length ≤ s.params.inMax →
      ∃ t w, exec (.queue x) s = .next t ∧
        exec (.queue x) { s with csr := { s.csr with muted := true } } = .next w ∧
        w = { t with csr := { t.csr with muted := true }, phase := w.phase } ∧
        w.phase.waiting = t.phase.waiting ∧ w.phase.polls = t.phase.polls ∧
        w.phase.block = List.replicate t.phase.block.length 0#16

/-- R137: `to_work(v)` is finite and stands for exactly v / 32768; and (a corner case of R139)
`sat16(to_work(v)) = v` for every s16 v. -/
def Obligations.ToWorkIsExact : Prop :=
  ∀ v : Sample, finite32 (toWork v) ∧ binary32Value (toWork v) = (v.toInt : ℚ) / 32768 ∧
    sat16 (toWork v) = v

/-- R139: `sat16(y)` is 0 for NaN; the infinities saturate; a finite y gives the integer nearest to
y * 32768, ties to even, clamped to s16. -/
def Obligations.SaturatingConversion : Prop :=
  (∀ y : Binary32, exponentBits y = 255 → fractionBits y ≠ 0 → sat16 y = 0#16) ∧
    sat16 0x7F800000#32 = 32767#16 ∧ sat16 0xFF800000#32 = BitVec.ofInt 16 (-32768) ∧
    ∀ y : Binary32, finite32 y → ∃ r : ℤ,
      |(r : ℚ) - binary32Value y * 32768| ≤ 1 / 2 ∧
        (|(r : ℚ) - binary32Value y * 32768| = 1 / 2 → 2 ∣ r) ∧
        (sat16 y).toInt = min (max r (-32768)) 32767

/-- R150: REHASH. Outside CLOSED, a zero RATE or a zero RATIO raises REHASH_REJ (bit 2) and changes nothing
else; otherwise NATIVE_RATE and QUALITY are written and SIGMA is re-created, and nothing else changes. -/
def Obligations.RehashCommand : Prop :=
  ∀ (s : State) (q : BitVec 4) (rate : BitVec 20), s.csr.life ≠ .closed →
    (rate = 0#20 ∨ s.csr.ratio = 0#32 →
      exec (.rehash q rate) s = .next (s.withEvents 0x004#12)) ∧
    (rate ≠ 0#20 → s.csr.ratio ≠ 0#32 →
      exec (.rehash q rate) s =
        .next
          { s with
            csr := { s.csr with nativeRate := rate, quality := q }
            sigma := Config.srcInit q })

/-- R152: SETMUTE writes MODE.MUTED and nothing else, outside CLOSED. -/
def Obligations.SetmuteCommand : Prop :=
  ∀ (s : State) (f : Bool), s.csr.life ≠ .closed →
    exec (.setmute f) s = .next { s with csr := { s.csr with muted := f } }

/-! ## The frame pacer (42_frame_pacer.md) -/

/-- R160 to R164: TICK, outside CLOSED. The effective refresh R, the remainder reset when R changes, the
division and accumulation, the speed scaling, the events REFRESH_FB (bit 6) and FRAMES_SAT (bit 7), and the
response; nothing else changes. The new remainder is below R and the frame count is at most FRAMETIME. -/
def Obligations.TickCommand : Prop :=
  ∀ s : State, s.csr.life ≠ .closed → s.ConfigInv → s.PacerInv →
    let c := s.csr
    let F := c.frametime.toNat
    let fallback : Bool := decide (c.refresh.toNat = 0) || decide (c.refresh.toNat < c.refreshMin.toNat)
      || decide (c.refreshMax.toNat < c.refresh.toNat)
    let R := if fallback then c.refreshFallback else c.refresh
    let start := if R ≠ c.effRefresh then 0 else c.remainder.toNat
    let sum := start + F % R.toNat
    let f := if R.toNat ≤ sum then F / R.toNat + 1 else F / R.toNat
    let rem := if R.toNat ≤ sum then sum - R.toNat else sum
    let p := f * c.frameMult.toNat
    let out := if c.paused = true then 0 else if 2 ^ 32 - 1 < p then 2 ^ 32 - 1 else p
    exec .tick s =
        .next
          { s with
            csr :=
              { c with
                effRefresh := R
                remainder := BitVec.ofNat 16 rem
                frameAcc := c.frameAcc + BitVec.ofNat 32 f
                lastFrames := BitVec.ofNat 32 out
                events := c.events ||| (if fallback then 0x040#12 else 0#12)
                  ||| (if c.paused = false ∧ 2 ^ 32 - 1 < p then 0x080#12 else 0#12) }
            responses := s.responses ++ [BitVec.ofNat 32 out] } ∧
      1 ≤ R.toNat ∧ rem < R.toNat ∧ f ≤ F

/-- R165: over T consecutive TICKs with constant FRAMETIME = F and constant effective refresh R, from
REMAINDER = r0 < R, the pacer counts sum to `T*(F div R) + ((r0 + T*(F mod R)) div R)` and REMAINDER ends at
`(r0 + T*(F mod R)) mod R`; with r0 = 0 the sum is `(T*F) div R`, less than one frame from T*F/R. -/
def Obligations.BoundedErrorPacing : Prop :=
  ∀ (s : State) (T : Nat) (more : List Word), s.csr.life ≠ .closed → s.phase = .idle →
    s.fillReq = [] → s.cmdIn = List.replicate T 0x30000000#32 ++ more →
    s.csr.effectiveRefresh = s.csr.effRefresh → s.csr.remainder < s.csr.effRefresh →
      let F := s.csr.frametime.toNat
      let R := s.csr.effRefresh.toNat
      let r0 := s.csr.remainder.toNat
      let sum := T * (F / R) + (r0 + T * (F % R)) / R
      ∃ t, runSteps T s = .next t ∧ t.cmdIn = more ∧
        t.csr.frameAcc = s.csr.frameAcc + BitVec.ofNat 32 sum ∧
        t.csr.remainder.toNat = (r0 + T * (F % R)) % R ∧
        (s.csr.paused = false → s.csr.frameMult = 1#8 → ∃ out : List Word,
          t.responses = s.responses ++ out ∧ out.length = T ∧ sumWords out = sum) ∧
        (r0 = 0 → sum = T * F / R ∧ |(sum : ℚ) - (T * F : ℚ) / R| < 1)

/-- R166: with FRAMETIME = 16683, effective refresh 60, REMAINDER = 0 and FRAME_MULT = 1, 10,000 TICKs return
2,780,500 frames in total, FRAME_ACC increases by that, and REMAINDER ends at 0. -/
def Obligations.DriftTest : Prop :=
  ∀ s : State, s.csr.life ≠ .closed → s.phase = .idle → s.fillReq = [] →
    s.cmdIn = List.replicate 10000 0x30000000#32 → s.csr.frametime = 16683#32 →
    s.csr.effectiveRefresh = 60#16 → s.csr.remainder = 0#16 → s.csr.frameMult = 1#8 →
    s.csr.paused = false →
      ∃ t out, runSteps 10000 s = .next t ∧ t.responses = s.responses ++ out ∧ out.length = 10000 ∧
        sumWords out = 2780500 ∧ t.csr.frameAcc = s.csr.frameAcc + 2780500#32 ∧
        t.csr.remainder = 0#16

/-- R167: after every TICK `0 <= REMAINDER < EFF_REFRESH`; a CSRW of FRAMETIME that changes the value sets
REMAINDER to 0; no other operation writes REMAINDER but OPEN, which writes 0. -/
def Obligations.RemainderInvariant : Prop :=
  (∀ s t : State, s.csr.life ≠ .closed → s.ConfigInv → s.PacerInv → exec .tick s = .next t →
      t.csr.remainder < t.csr.effRefresh) ∧
    ∀ s t : State, step s = .next t → t.csr.remainder ≠ s.csr.remainder →
      (∃ u, s.select = .run .tick u) ∨
        t.csr.remainder = 0#16 ∧
          ((∃ f u, s.select = .run (.openDev f) u) ∨
            ∃ v u, s.select = .run (.csrw 0x20#8 v) u ∧ v ≠ s.csr.frametime)

/-! ## The speed controller (43_speed_controller.md) -/

/-- R180, R181: SETSPEED, outside CLOSED, writes FRAME_MULT and DECIM and nothing else; with M = 0 it raises
BAD_ARG (bit 4) and leaves both. -/
def Obligations.SetspeedCommand : Prop :=
  ∀ (s : State) (m : BitVec 8), s.csr.life ≠ .closed →
    (m ≠ 0#8 → exec (.setspeed m) s = .next { s with csr := { s.csr with frameMult := m, decim := m } }) ∧
      (m = 0#8 → exec (.setspeed m) s = .next (s.withEvents 0x010#12))

/-- 43_speed_controller.md section 3: PAUSE sets MODE.PAUSED and changes nothing else; paused, a TICK responds
0 while the pacer runs on, and a FILL delivers silence and leaves everything else. -/
def Obligations.PauseCommand : Prop :=
  ∀ s : State, s.csr.life ≠ .closed →
    ∃ t : State, t = { s with csr := { s.csr with paused := true } } ∧ exec .pause s = .next t ∧
      (∃ u, exec .tick t = .next u ∧ u.responses = t.responses ++ [0#32] ∧
        ∃ w, exec .tick s = .next w ∧ u.csr.remainder = w.csr.remainder ∧
          u.csr.frameAcc = w.csr.frameAcc) ∧
      ∀ k : Length,
        exec (.fill k) t = .next { t with fillData := t.fillData ++ List.replicate k.toNat 0#16 }

/-- R185: UNPAUSE clears MODE.PAUSED and nothing else; the next FILL delivers the oldest stored samples of the
occupancy left at the PAUSE. -/
def Obligations.UnpauseCommand : Prop :=
  ∀ s : State, s.csr.life ≠ .closed →
    exec .unpause s = .next { s with csr := { s.csr with paused := false } } ∧
      (s.csr.life = .active → s.params.Legal → s.RingInv → ∀ k : Length,
        ∃ u, exec (.fill k) { s with csr := { s.csr with paused := false } } = .next u ∧
          u.fillData = s.fillData ++ s.contents.take k.toNat
            ++ List.replicate (k.toNat - s.csr.rbCount.toNat) 0#16)

/-- R183: decimation. DECIM = 1 is the identity; else `nf1 = (2*nf + m) div (2*m)` sample frames of C samples
are kept, frame f being the input's frame f*m, and every index read is in range. -/
def Obligations.DecimationKeepsEveryMth : Prop :=
  ∀ (x : List Sample) (m ch : Nat), 1 ≤ m → 1 ≤ ch →
    decimate x 1 ch = x ∧
      (m ≠ 1 →
        let nf1 := (2 * (x.length / ch) + m) / (2 * m)
        (decimate x m ch).length = nf1 * ch ∧
          ∀ f c, f < nf1 → c < ch →
            f * m * ch + c < x.length ∧ (decimate x m ch)[f * ch + c]? = x[f * m * ch + c]?)

/-- R186: with FRAME_MULT = DECIM = m and CHANNELS = 1, m*f frames of N samples hand the resampler a number
of samples that differs from f*N by at most m*f/2. -/
def Obligations.LockstepSpeed : Prop :=
  ∀ (s : State) (x : List Sample) (f m : Nat), 1 ≤ m →
    s.csr.frameMult.toNat = m → s.csr.decim.toNat = m → s.csr.channels = 1#4 → s.csr.paused = false →
    f * m ≤ 2 ^ 32 - 1 →
      let n1 := (decimate x s.csr.decim.toNat s.csr.channels.toNat).length
      s.csr.speedScale f = m * f ∧
        2 * |((m * f * n1 : Nat) : Int) - ((f * x.length : Nat) : Int)| ≤ ((m * f : Nat) : Int)

/-- R187: FRAME_MULT acts on TICK alone and DECIM on QUEUE alone. A QUEUE does the same whatever FRAME_MULT
holds, a TICK the same whatever DECIM holds, and a legal CSRW to one of the two changes that one register
and nothing else. -/
def Obligations.SpeedParametersAreIndependent : Prop :=
  ∀ (s t : State) (m : BitVec 8) (v : Word), s.csr.life ≠ .closed →
    (∀ x, exec (.queue x) s = .next t →
      exec (.queue x) { s with csr := { s.csr with frameMult := m } }
        = .next { t with csr := { t.csr with frameMult := m } }) ∧
    (exec .tick s = .next t →
      exec .tick { s with csr := { s.csr with decim := m } }
        = .next { t with csr := { t.csr with decim := m } }) ∧
    (1 ≤ v.toNat → v.toNat ≤ 255 →
      exec (.csrw 0x30#8 v) s = .next { s with csr := { s.csr with frameMult := BitVec.ofNat 8 v.toNat } } ∧
      exec (.csrw 0x31#8 v) s = .next { s with csr := { s.csr with decim := BitVec.ofNat 8 v.toNat } })

/-! ## Whole-machine invariants -/

/-- The power-on state has every invariant. -/
def Obligations.ResetHasTheInvariant : Prop := State.reset.Inv

/-- Every step keeps every invariant the spec gives the machine: legal parameters, the ring indices (R29),
nonzero divisors (R31, R33, R37, R39, R43, R46), RATIO (R36), REMAINDER (R44), the phase (R50) and the store's
form. -/
def Obligations.StepKeepsTheInvariant : Prop := ∀ s t : State, s.Inv → step s = .next t → t.Inv

/-- 00_scope.md section 4: the synthesis parameters are fixed; no step changes them. -/
def Obligations.ParametersAreFixed : Prop := ∀ s t : State, step s = .next t → t.params = s.params

/-- 44_engine_control.md section 3: what the host sends or takes between two steps keeps every invariant. -/
def Obligations.HostMovesKeepTheInvariant : Prop :=
  ∀ (s : State) (p : PortWords) (n : Nat), s.Inv →
    (s.send p).Inv ∧ (s.takeSamples n).2.Inv ∧ ∀ v t, s.takeResponse = some (v, t) → t.Inv

/-! ## The platform's side (20_memory.md R64, R70; 30_encoding.md R95, R96) -/

/-- R64: over a byte-wide bus the bytes of each unit go least significant first, and the units come back
whole. R70: CSR address a lies at byte address AAPB_BASE + 4*a. -/
def Obligations.BusCarriesWholeUnits : Prop :=
  (∀ ws : List Word, wordsOfBytes (ws.flatMap wordBytes) = ws) ∧
    (∀ xs : List Sample, samplesOfBytes (xs.flatMap sampleBytes) = xs) ∧
    (∀ w : Word, ∀ i, i < 4 → (wordBytes w)[i]? = some (BitVec.ofNat 8 (w.toNat / 256 ^ i))) ∧
    (∀ v : Sample, ∀ i, i < 2 → (sampleBytes v)[i]? = some (BitVec.ofNat 8 (v.toNat / 256 ^ i))) ∧
    ∀ a : BitVec 8, csrByteAddress a = Config.aapbBase + 4 * a.toNat

/-- R95 (the operands of every mnemonic) and R96: a line whose operands fit their fields gives its instruction,
any other line is refused, a payload is its n s16 values, and the pseudo-instructions have their expansions. -/
def Obligations.AssemblerOperandsAndPseudoInstructions : Prop :=
  (∀ line i, assemble line = some i → i.WellFormed) ∧
    (∀ f, assemble (.openDev f) = if f < 2 then some (.openDev (decide (f = 1))) else none) ∧
    (∀ f, assemble (.setmute f) = if f < 2 then some (.setmute (decide (f = 1))) else none) ∧
    assemble .close = some .close ∧ assemble .tick = some .tick ∧ assemble .pause = some .pause ∧
    assemble .unpause = some .unpause ∧
    (∀ k, assemble (.fill k) = if k < 65536 then some (.fill (BitVec.ofNat 16 k)) else none) ∧
    (∀ m, assemble (.setspeed m) = if m < 256 then some (.setspeed (BitVec.ofNat 8 m)) else none) ∧
    (∀ q rate, assemble (.rehash q rate) =
      if q < 16 ∧ rate < 1048576 then some (.rehash (BitVec.ofNat 4 q) (BitVec.ofNat 20 rate)) else none) ∧
    (∀ a v, assemble (.csrw a v) =
      if a < 256 ∧ v < 4294967296 then some (.csrw (BitVec.ofNat 8 a) (BitVec.ofNat 32 v)) else none) ∧
    (∀ a, assemble (.csrr a) = if a < 256 then some (.csrr (BitVec.ofNat 8 a)) else none) ∧
    (∀ (n : Nat) (x : List Int),
      let fits : Prop := n < 65536 ∧ x.length = n ∧ ∀ v ∈ x, -32768 ≤ v ∧ v ≤ 32767
      (fits → assemble (.queue n x) = some (.queue (x.map (BitVec.ofInt 16))) ∧
        assemble (.enqraw n x) = some (.enqraw (x.map (BitVec.ofInt 16)))) ∧
      (¬ fits → assemble (.queue n x) = none ∧ assemble (.enqraw n x) = none)) ∧
    assemble .mute = assemble (.setmute 1) ∧ assemble .unmute = assemble (.setmute 0) ∧
    (∀ v, assemble (.setFrametime v) = assemble (.csrw 0x20 v)) ∧
    (∀ v, assemble (.setRefresh v) = assemble (.csrw 0x21 v)) ∧
    assemble .clrEvents = assemble (.csrw 0x06 0xFFF) ∧
    (∀ m, assemble (.setFrameMult m) = assemble (.csrw 0x30 m)) ∧
    (∀ m, assemble (.setDecim m) = assemble (.csrw 0x31 m)) ∧
    assemble .queue0 = assemble (.queue 0 []) ∧ assemble .queue0 = some (.queue [])
end

