-- ==== Sys2Proof/Laws/Decode.lean ====
section
/-! SUPPORT. The laws of the command word's formats, bit by bit: every field reads back from the word that holds
it, and no reserved bit is set (30_encoding.md R80 to R87, R91). -/

namespace Sys2Proof

/-! ## The bits of each format -/

/-- Format N: OP above 28 zeros (R81). -/
theorem formatN_bit (op : BitVec 4) (i : Nat) :
    (formatN op).getLsbD i = if i < 28 then false else op.getLsbD (i - 28) := by
  have h : (formatN op).getLsbD i = (op ++ 0#28 : BitVec (4 + 28)).getLsbD i := rfl
  rw [h, BitVec.getLsbD_append]
  by_cases hi : i < 28 <;> simp [hi]

/-- Format B: OP, 27 zeros, F (R82). -/
theorem formatB_bit (op : BitVec 4) (f : Bool) (i : Nat) :
    (formatB op f).getLsbD i
      = if i < 1 then f else if i < 28 then false else op.getLsbD (i - 28) := by
  have h : (formatB op f).getLsbD i
      = ((op ++ 0#27 : BitVec (4 + 27)) ++ BitVec.ofBool f : BitVec (4 + 27 + 1)).getLsbD i := rfl
  rw [h, BitVec.getLsbD_append, BitVec.getLsbD_append]
  by_cases h1 : i < 1
  · have : i = 0 := by omega
    subst this; simp
  · by_cases h2 : i < 28
    · simp [h1, h2, show i - 1 < 27 by omega]
    · simp [h1, h2, show ¬ i - 1 < 27 by omega, show i - 1 - 27 = i - 28 by omega]

/-- A field of `n` bits under `z` zeros under OP (R83, R84, R87). -/
theorem append_zeros_bit {n z : Nat} (op : BitVec 4) (y : BitVec n) (i : Nat) :
    ((op ++ 0#z : BitVec (4 + z)) ++ y : BitVec (4 + z + n)).getLsbD i
      = if i < n then y.getLsbD i else if i < z + n then false else op.getLsbD (i - (z + n)) := by
  rw [BitVec.getLsbD_append, BitVec.getLsbD_append]
  by_cases h1 : i < n
  · simp [h1]
  · by_cases h2 : i < z + n
    · simp [h1, h2, show i - n < z by omega]
    · simp [h1, h2, show ¬ i - n < z by omega, show i - n - z = i - (z + n) by omega]

/-- Format L: OP, 12 zeros, N (R83). -/
theorem formatL_bit (op : BitVec 4) (n : Length) (i : Nat) :
    (formatL op n).getLsbD i
      = if i < 16 then n.getLsbD i else if i < 28 then false else op.getLsbD (i - 28) :=
  append_zeros_bit (z := 12) op n i

/-- Format S: OP, 20 zeros, M (R84). -/
theorem formatS_bit (op : BitVec 4) (m : BitVec 8) (i : Nat) :
    (formatS op m).getLsbD i
      = if i < 8 then m.getLsbD i else if i < 28 then false else op.getLsbD (i - 28) :=
  append_zeros_bit (z := 20) op m i

/-- Format A: OP, 20 zeros, ADDR (R87). -/
theorem formatA_bit (op : BitVec 4) (addr : BitVec 8) (i : Nat) :
    (formatA op addr).getLsbD i
      = if i < 8 then addr.getLsbD i else if i < 28 then false else op.getLsbD (i - 28) :=
  append_zeros_bit (z := 20) op addr i

/-- Format H: OP, Q, RATE, 4 zeros (R85). -/
theorem formatH_bit (op q : BitVec 4) (rate : BitVec 20) (i : Nat) :
    (formatH op q rate).getLsbD i
      = if i < 4 then false else if i < 24 then rate.getLsbD (i - 4)
        else if i < 28 then q.getLsbD (i - 24) else op.getLsbD (i - 28) := by
  have h : (formatH op q rate).getLsbD i = (((op ++ q : BitVec (4 + 4)) ++ rate : BitVec (4 + 4 + 20))
      ++ 0#4 : BitVec (4 + 4 + 20 + 4)).getLsbD i := rfl
  rw [h, BitVec.getLsbD_append, BitVec.getLsbD_append, BitVec.getLsbD_append]
  by_cases h1 : i < 4
  · simp [h1]
  · by_cases h2 : i < 24
    · simp [h1, h2, show i - 4 < 20 by omega]
    · by_cases h3 : i < 28
      · rw [if_neg h1, if_neg h2, if_pos h3, show i - 24 = i - 4 - 20 by omega]
        simp [h1, show ¬ i - 4 < 20 by omega, show i - 4 - 20 < 4 by omega]
      · rw [if_neg h1, if_neg h2, if_neg h3, show i - 28 = i - 4 - 20 - 4 by omega]
        simp [h1, show ¬ i - 4 < 20 by omega, show ¬ i - 4 - 20 < 4 by omega]

/-! ## The bits of each field -/

theorem opcode_bit (w : Word) (i : Nat) (hi : i < 4) : (opcode w).getLsbD i = w.getLsbD (28 + i) := by
  simp [opcode, hi]

theorem fieldN_bit (w : Word) (i : Nat) (hi : i < 16) : (fieldN w).getLsbD i = w.getLsbD i := by
  simp [fieldN, hi]

theorem fieldM_bit (w : Word) (i : Nat) (hi : i < 8) : (fieldM w).getLsbD i = w.getLsbD i := by
  simp [fieldM, hi]

theorem fieldAddr_bit (w : Word) (i : Nat) (hi : i < 8) : (fieldAddr w).getLsbD i = w.getLsbD i := by
  simp [fieldAddr, hi]

theorem fieldQ_bit (w : Word) (i : Nat) (hi : i < 4) : (fieldQ w).getLsbD i = w.getLsbD (24 + i) := by
  simp [fieldQ, hi]

theorem fieldRate_bit (w : Word) (i : Nat) (hi : i < 20) :
    (fieldRate w).getLsbD i = w.getLsbD (4 + i) := by
  simp [fieldRate, hi]

/-- A mask of the bits `lo` to `lo + len - 1` clears `w` exactly when that field of `w` is 0. -/
theorem and_mask_eq_zero (w mask : Word) (lo len : Nat) (hl : lo + len ≤ 32)
    (hm : ∀ i, i < 32 → mask.getLsbD i = (decide (lo ≤ i) && decide (i < lo + len))) :
    w &&& mask = 0#32 ↔ w.extractLsb' lo len = 0#len := by
  constructor
  · intro h
    apply BitVec.eq_of_getLsbD_eq
    intro i hi
    have h1 := congrArg (fun v => v.getLsbD (lo + i)) h
    simp only [BitVec.getLsbD_and, hm (lo + i) (by omega)] at h1
    simpa [hi] using h1
  · intro h
    apply BitVec.eq_of_getLsbD_eq
    intro i hi
    simp only [BitVec.getLsbD_and, hm i hi]
    by_cases h1 : lo ≤ i ∧ i < lo + len
    · have h2 := congrArg (fun v => v.getLsbD (i - lo)) h
      simp only [BitVec.getLsbD_extractLsb', BitVec.getLsbD_zero, Bool.and_eq_false_imp,
        decide_eq_true_eq] at h2
      have h3 := h2 (by omega)
      rw [show lo + (i - lo) = i by omega] at h3
      simp [h3]
    · have h2 : (decide (lo ≤ i) && decide (i < lo + len)) = false := by simp; omega
      rw [h2]; simp

/-! ## Reading back -/

@[simp] theorem opcode_formatN (op : BitVec 4) : opcode (formatN op) = op := by
  apply BitVec.eq_of_getLsbD_eq
  intro i hi
  rw [opcode_bit _ _ hi, formatN_bit, if_neg (by omega), Nat.add_sub_cancel_left]

@[simp] theorem opcode_formatB (op : BitVec 4) (f : Bool) : opcode (formatB op f) = op := by
  apply BitVec.eq_of_getLsbD_eq
  intro i hi
  rw [opcode_bit _ _ hi, formatB_bit, if_neg (by omega), if_neg (by omega), Nat.add_sub_cancel_left]

@[simp] theorem opcode_formatL (op : BitVec 4) (n : Length) : opcode (formatL op n) = op := by
  apply BitVec.eq_of_getLsbD_eq
  intro i hi
  rw [opcode_bit _ _ hi, formatL_bit, if_neg (by omega), if_neg (by omega), Nat.add_sub_cancel_left]

@[simp] theorem opcode_formatS (op : BitVec 4) (m : BitVec 8) : opcode (formatS op m) = op := by
  apply BitVec.eq_of_getLsbD_eq
  intro i hi
  rw [opcode_bit _ _ hi, formatS_bit, if_neg (by omega), if_neg (by omega), Nat.add_sub_cancel_left]

@[simp] theorem opcode_formatA (op : BitVec 4) (addr : BitVec 8) : opcode (formatA op addr) = op := by
  apply BitVec.eq_of_getLsbD_eq
  intro i hi
  rw [opcode_bit _ _ hi, formatA_bit, if_neg (by omega), if_neg (by omega), Nat.add_sub_cancel_left]

@[simp] theorem opcode_formatH (op q : BitVec 4) (rate : BitVec 20) :
    opcode (formatH op q rate) = op := by
  apply BitVec.eq_of_getLsbD_eq
  intro i hi
  rw [opcode_bit _ _ hi, formatH_bit, if_neg (by omega), if_neg (by omega), if_neg (by omega),
    Nat.add_sub_cancel_left]

@[simp] theorem fieldF_formatB (op : BitVec 4) (f : Bool) : fieldF (formatB op f) = f := by
  rw [fieldF, formatB_bit, if_pos (by omega)]

@[simp] theorem fieldN_formatL (op : BitVec 4) (n : Length) : fieldN (formatL op n) = n := by
  apply BitVec.eq_of_getLsbD_eq
  intro i hi
  rw [fieldN_bit _ _ hi, formatL_bit, if_pos hi]

@[simp] theorem fieldM_formatS (op : BitVec 4) (m : BitVec 8) : fieldM (formatS op m) = m := by
  apply BitVec.eq_of_getLsbD_eq
  intro i hi
  rw [fieldM_bit _ _ hi, formatS_bit, if_pos hi]

@[simp] theorem fieldAddr_formatA (op : BitVec 4) (addr : BitVec 8) :
    fieldAddr (formatA op addr) = addr := by
  apply BitVec.eq_of_getLsbD_eq
  intro i hi
  rw [fieldAddr_bit _ _ hi, formatA_bit, if_pos hi]

@[simp] theorem fieldQ_formatH (op q : BitVec 4) (rate : BitVec 20) :
    fieldQ (formatH op q rate) = q := by
  apply BitVec.eq_of_getLsbD_eq
  intro i hi
  rw [fieldQ_bit _ _ hi, formatH_bit, if_neg (by omega), if_neg (by omega), if_pos (by omega),
    Nat.add_sub_cancel_left]

@[simp] theorem fieldRate_formatH (op q : BitVec 4) (rate : BitVec 20) :
    fieldRate (formatH op q rate) = rate := by
  apply BitVec.eq_of_getLsbD_eq
  intro i hi
  rw [fieldRate_bit _ _ hi, formatH_bit, if_neg (by omega), if_pos (by omega),
    Nat.add_sub_cancel_left]

/-! ## No reserved bit -/

@[simp] theorem formatN_reserved (op : BitVec 4) : formatN op &&& reservedN = 0#32 := by
  rw [and_mask_eq_zero _ reservedN 0 28 (by omega) (by decide)]
  apply BitVec.eq_of_getLsbD_eq
  intro i hi
  simp only [BitVec.getLsbD_extractLsb', formatN_bit]
  rw [if_pos (by omega)]; simp

@[simp] theorem formatB_reserved (op : BitVec 4) (f : Bool) : formatB op f &&& reservedB = 0#32 := by
  rw [and_mask_eq_zero _ reservedB 1 27 (by omega) (by decide)]
  apply BitVec.eq_of_getLsbD_eq
  intro i hi
  simp only [BitVec.getLsbD_extractLsb', formatB_bit]
  rw [if_neg (by omega), if_pos (by omega)]; simp

@[simp] theorem formatL_reserved (op : BitVec 4) (n : Length) : formatL op n &&& reservedL = 0#32 := by
  rw [and_mask_eq_zero _ reservedL 16 12 (by omega) (by decide)]
  apply BitVec.eq_of_getLsbD_eq
  intro i hi
  simp only [BitVec.getLsbD_extractLsb', formatL_bit]
  rw [if_neg (by omega), if_pos (by omega)]; simp

@[simp] theorem formatS_reserved (op : BitVec 4) (m : BitVec 8) : formatS op m &&& reservedS = 0#32 := by
  rw [and_mask_eq_zero _ reservedS 8 20 (by omega) (by decide)]
  apply BitVec.eq_of_getLsbD_eq
  intro i hi
  simp only [BitVec.getLsbD_extractLsb', formatS_bit]
  rw [if_neg (by omega), if_pos (by omega)]; simp

@[simp] theorem formatA_reserved (op : BitVec 4) (addr : BitVec 8) :
    formatA op addr &&& reservedA = 0#32 := by
  rw [and_mask_eq_zero _ reservedA 8 20 (by omega) (by decide)]
  apply BitVec.eq_of_getLsbD_eq
  intro i hi
  simp only [BitVec.getLsbD_extractLsb', formatA_bit]
  rw [if_neg (by omega), if_pos (by omega)]; simp

@[simp] theorem formatH_reserved (op q : BitVec 4) (rate : BitVec 20) :
    formatH op q rate &&& reservedH = 0#32 := by
  rw [and_mask_eq_zero _ reservedH 0 4 (by omega) (by decide)]
  apply BitVec.eq_of_getLsbD_eq
  intro i hi
  simp only [BitVec.getLsbD_extractLsb', formatH_bit]
  rw [if_pos (by omega)]; simp

/-! ## A decoded command has no reserved bit -/

/-- What a decoder arm answers. -/
theorem unlessReserved_eq_ok {reserved w : Word} {i j : Instr} :
    unlessReserved reserved w i = .ok j ↔ w &&& reserved = 0#32 ∧ i = j := by
  unfold unlessReserved
  by_cases h : w &&& reserved = 0#32 <;> simp [h]

/-- A command's frame, framing taken apart (R90). -/
theorem takeFrame_cons (w : Word) (rest : List Word) (xs : List Sample) :
    takeFrame (w :: rest) xs =
      if trailingWords w ≤ rest.length ∧ trailingSamples w ≤ xs.length then
        some
          { frame :=
              { word := w
                data := if trailingWords w = 0 then 0#32 else rest.headD 0#32
                payload := xs.take (trailingSamples w) }
            cmdRest := rest.drop (trailingWords w)
            sampleRest := xs.drop (trailingSamples w) }
      else none := rfl

end Sys2Proof
end

