-- ==== Sys2Proof/Laws/PerInstr.lean ====
section
/-! SUPPORT. The encoding of each instruction has the bits that its row of spec/opcode_table.json fixes
(30_encoding.md R89): one lemma for each constructor. -/

namespace Sys2Proof.Laws.OpcodeBits

/-- The opcode and the reserved bits of the row's command word (30_encoding.md R81 to R87). FILL has no
opcode and no reserved bits (R88). -/
def row (i : Instr) : Option (BitVec 4 × Word) :=
  match i with
  | .openDev _ => some (0x1#4, reservedB)
  | .close => some (0x2#4, reservedN)
  | .tick => some (0x3#4, reservedN)
  | .queue _ => some (0x4#4, reservedL)
  | .setspeed _ => some (0x5#4, reservedS)
  | .pause => some (0x6#4, reservedN)
  | .unpause => some (0x7#4, reservedN)
  | .setmute _ => some (0x8#4, reservedB)
  | .rehash _ _ => some (0x9#4, reservedH)
  | .csrw _ _ => some (0xA#4, reservedA)
  | .csrr _ => some (0xB#4, reservedA)
  | .enqraw _ => some (0xC#4, reservedL)
  | .fill _ => none

/-- A command is a first word with the row's opcode and no reserved bit, and no fill request; FILL is one
fill request and no command word. -/
def Statement (i : Instr) : Prop :=
  match row i with
  | some (op, reserved) =>
    (encode i).fills = [] ∧
      ∃ w, (encode i).cmd.head? = some w ∧ opcode w = op ∧ w &&& reserved = 0#32
  | none => (encode i).cmd = [] ∧ (encode i).samples = [] ∧ (encode i).fills.length = 1

theorem openDev (devOk : Bool) : Statement (.openDev devOk) :=
  ⟨rfl, _, rfl, opcode_formatB _ _, formatB_reserved _ _⟩

theorem close : Statement .close := ⟨rfl, _, rfl, opcode_formatN _, formatN_reserved _⟩

theorem tick : Statement .tick := ⟨rfl, _, rfl, opcode_formatN _, formatN_reserved _⟩

theorem queue (x : List Sample) : Statement (.queue x) :=
  ⟨rfl, _, rfl, opcode_formatL _ _, formatL_reserved _ _⟩

theorem setspeed (m : BitVec 8) : Statement (.setspeed m) :=
  ⟨rfl, _, rfl, opcode_formatS _ _, formatS_reserved _ _⟩

theorem pause : Statement .pause := ⟨rfl, _, rfl, opcode_formatN _, formatN_reserved _⟩

theorem unpause : Statement .unpause := ⟨rfl, _, rfl, opcode_formatN _, formatN_reserved _⟩

theorem setmute (f : Bool) : Statement (.setmute f) :=
  ⟨rfl, _, rfl, opcode_formatB _ _, formatB_reserved _ _⟩

theorem rehash (q : BitVec 4) (rate : BitVec 20) : Statement (.rehash q rate) :=
  ⟨rfl, _, rfl, opcode_formatH _ _ _, formatH_reserved _ _ _⟩

theorem csrw (addr : BitVec 8) (v : Word) : Statement (.csrw addr v) :=
  ⟨rfl, _, rfl, opcode_formatA _ _, formatA_reserved _ _⟩

theorem csrr (addr : BitVec 8) : Statement (.csrr addr) :=
  ⟨rfl, _, rfl, opcode_formatA _ _, formatA_reserved _ _⟩

theorem enqraw (x : List Sample) : Statement (.enqraw x) :=
  ⟨rfl, _, rfl, opcode_formatL _ _, formatL_reserved _ _⟩

theorem fill (k : Length) : Statement (.fill k) := ⟨rfl, rfl, rfl⟩

end Sys2Proof.Laws.OpcodeBits
end

