-- ==== Sys2Proof/Laws/State.lean ====
section
/-! SUPPORT. The small lemmas of the state updates: one for each field of each update. -/

namespace Sys2Proof.Machine

/-! ## `raise` -/

@[simp] theorem State.raise_params (s : State) (e : Event) : (s.raise e).params = s.params := rfl

@[simp] theorem State.raise_store (s : State) (e : Event) : (s.raise e).store = s.store := rfl

@[simp] theorem State.raise_sigma (s : State) (e : Event) : (s.raise e).sigma = s.sigma := rfl

@[simp] theorem State.raise_phase (s : State) (e : Event) : (s.raise e).phase = s.phase := rfl

@[simp] theorem State.raise_responses (s : State) (e : Event) : (s.raise e).responses = s.responses := rfl

@[simp] theorem State.raise_cmdIn (s : State) (e : Event) : (s.raise e).cmdIn = s.cmdIn := rfl

@[simp] theorem State.raise_sampleIn (s : State) (e : Event) : (s.raise e).sampleIn = s.sampleIn := rfl

@[simp] theorem State.raise_fillReq (s : State) (e : Event) : (s.raise e).fillReq = s.fillReq := rfl

@[simp] theorem State.raise_fillData (s : State) (e : Event) : (s.raise e).fillData = s.fillData := rfl

@[simp] theorem State.raise_sched (s : State) (e : Event) : (s.raise e).sched = s.sched := rfl

@[simp] theorem State.raise_turn (s : State) (e : Event) : (s.raise e).turn = s.turn := rfl

@[simp] theorem State.raise_life (s : State) (e : Event) : (s.raise e).csr.life = s.csr.life := rfl

@[simp] theorem State.raise_paused (s : State) (e : Event) : (s.raise e).csr.paused = s.csr.paused := rfl

@[simp] theorem State.raise_muted (s : State) (e : Event) : (s.raise e).csr.muted = s.csr.muted := rfl

@[simp] theorem State.raise_events (s : State) (e : Event) :
    (s.raise e).csr.events = s.csr.events ||| e.bit := rfl

@[simp] theorem State.raise_rbStart (s : State) (e : Event) : (s.raise e).csr.rbStart = s.csr.rbStart := rfl

@[simp] theorem State.raise_rbEnd (s : State) (e : Event) : (s.raise e).csr.rbEnd = s.csr.rbEnd := rfl

@[simp] theorem State.raise_rbCount (s : State) (e : Event) : (s.raise e).csr.rbCount = s.csr.rbCount := rfl

@[simp] theorem State.raise_underrunCnt (s : State) (e : Event) : (s.raise e).csr.underrunCnt = s.csr.underrunCnt := rfl

@[simp] theorem State.raise_dropCnt (s : State) (e : Event) : (s.raise e).csr.dropCnt = s.csr.dropCnt := rfl

@[simp] theorem State.raise_acceptCnt (s : State) (e : Event) : (s.raise e).csr.acceptCnt = s.csr.acceptCnt := rfl

@[simp] theorem State.raise_deliverCnt (s : State) (e : Event) : (s.raise e).csr.deliverCnt = s.csr.deliverCnt := rfl

@[simp] theorem State.raise_spc (s : State) (e : Event) : (s.raise e).csr.spc = s.csr.spc := rfl

@[simp] theorem State.raise_targetLow (s : State) (e : Event) : (s.raise e).csr.targetLow = s.csr.targetLow := rfl

@[simp] theorem State.raise_maxocc (s : State) (e : Event) : (s.raise e).csr.maxocc = s.csr.maxocc := rfl

@[simp] theorem State.raise_scale (s : State) (e : Event) : (s.raise e).csr.scale = s.csr.scale := rfl

@[simp] theorem State.raise_hostTickMs (s : State) (e : Event) : (s.raise e).csr.hostTickMs = s.csr.hostTickMs := rfl

@[simp] theorem State.raise_corrMax (s : State) (e : Event) : (s.raise e).csr.corrMax = s.csr.corrMax := rfl

@[simp] theorem State.raise_channels (s : State) (e : Event) : (s.raise e).csr.channels = s.csr.channels := rfl

@[simp] theorem State.raise_waitMax (s : State) (e : Event) : (s.raise e).csr.waitMax = s.csr.waitMax := rfl

@[simp] theorem State.raise_nativeRate (s : State) (e : Event) : (s.raise e).csr.nativeRate = s.csr.nativeRate := rfl

@[simp] theorem State.raise_quality (s : State) (e : Event) : (s.raise e).csr.quality = s.csr.quality := rfl

@[simp] theorem State.raise_ratio (s : State) (e : Event) : (s.raise e).csr.ratio = s.csr.ratio := rfl

@[simp] theorem State.raise_lastIn (s : State) (e : Event) : (s.raise e).csr.lastIn = s.csr.lastIn := rfl

@[simp] theorem State.raise_lastOutreq (s : State) (e : Event) : (s.raise e).csr.lastOutreq = s.csr.lastOutreq := rfl

@[simp] theorem State.raise_lastGen (s : State) (e : Event) : (s.raise e).csr.lastGen = s.csr.lastGen := rfl

@[simp] theorem State.raise_lastFq (s : State) (e : Event) : (s.raise e).csr.lastFq = s.csr.lastFq := rfl

@[simp] theorem State.raise_frametime (s : State) (e : Event) : (s.raise e).csr.frametime = s.csr.frametime := rfl

@[simp] theorem State.raise_refresh (s : State) (e : Event) : (s.raise e).csr.refresh = s.csr.refresh := rfl

@[simp] theorem State.raise_refreshMin (s : State) (e : Event) : (s.raise e).csr.refreshMin = s.csr.refreshMin := rfl

@[simp] theorem State.raise_refreshMax (s : State) (e : Event) : (s.raise e).csr.refreshMax = s.csr.refreshMax := rfl

@[simp] theorem State.raise_refreshFallback (s : State) (e : Event) : (s.raise e).csr.refreshFallback = s.csr.refreshFallback := rfl

@[simp] theorem State.raise_remainder (s : State) (e : Event) : (s.raise e).csr.remainder = s.csr.remainder := rfl

@[simp] theorem State.raise_effRefresh (s : State) (e : Event) : (s.raise e).csr.effRefresh = s.csr.effRefresh := rfl

@[simp] theorem State.raise_lastFrames (s : State) (e : Event) : (s.raise e).csr.lastFrames = s.csr.lastFrames := rfl

@[simp] theorem State.raise_frameAcc (s : State) (e : Event) : (s.raise e).csr.frameAcc = s.csr.frameAcc := rfl

@[simp] theorem State.raise_frameMult (s : State) (e : Event) : (s.raise e).csr.frameMult = s.csr.frameMult := rfl

@[simp] theorem State.raise_decim (s : State) (e : Event) : (s.raise e).csr.decim = s.csr.decim := rfl

/-! ## `raiseIf` -/

@[simp] theorem State.raiseIf_true (s : State) (e : Event) : s.raiseIf true e = s.raise e := rfl

@[simp] theorem State.raiseIf_false (s : State) (e : Event) : s.raiseIf false e = s := rfl

@[simp] theorem State.raiseIf_params (s : State) (b : Bool) (e : Event) : (s.raiseIf b e).params = s.params := by
  cases b <;> rfl

@[simp] theorem State.raiseIf_store (s : State) (b : Bool) (e : Event) : (s.raiseIf b e).store = s.store := by
  cases b <;> rfl

@[simp] theorem State.raiseIf_sigma (s : State) (b : Bool) (e : Event) : (s.raiseIf b e).sigma = s.sigma := by
  cases b <;> rfl

@[simp] theorem State.raiseIf_phase (s : State) (b : Bool) (e : Event) : (s.raiseIf b e).phase = s.phase := by
  cases b <;> rfl

@[simp] theorem State.raiseIf_responses (s : State) (b : Bool) (e : Event) : (s.raiseIf b e).responses = s.responses := by
  cases b <;> rfl

@[simp] theorem State.raiseIf_cmdIn (s : State) (b : Bool) (e : Event) : (s.raiseIf b e).cmdIn = s.cmdIn := by
  cases b <;> rfl

@[simp] theorem State.raiseIf_sampleIn (s : State) (b : Bool) (e : Event) : (s.raiseIf b e).sampleIn = s.sampleIn := by
  cases b <;> rfl

@[simp] theorem State.raiseIf_fillReq (s : State) (b : Bool) (e : Event) : (s.raiseIf b e).fillReq = s.fillReq := by
  cases b <;> rfl

@[simp] theorem State.raiseIf_fillData (s : State) (b : Bool) (e : Event) : (s.raiseIf b e).fillData = s.fillData := by
  cases b <;> rfl

@[simp] theorem State.raiseIf_sched (s : State) (b : Bool) (e : Event) : (s.raiseIf b e).sched = s.sched := by
  cases b <;> rfl

@[simp] theorem State.raiseIf_turn (s : State) (b : Bool) (e : Event) : (s.raiseIf b e).turn = s.turn := by
  cases b <;> rfl

@[simp] theorem State.raiseIf_life (s : State) (b : Bool) (e : Event) :
    (s.raiseIf b e).csr.life = s.csr.life := by
  cases b <;> rfl

@[simp] theorem State.raiseIf_paused (s : State) (b : Bool) (e : Event) :
    (s.raiseIf b e).csr.paused = s.csr.paused := by
  cases b <;> rfl

@[simp] theorem State.raiseIf_muted (s : State) (b : Bool) (e : Event) :
    (s.raiseIf b e).csr.muted = s.csr.muted := by
  cases b <;> rfl

@[simp] theorem State.raiseIf_events (s : State) (b : Bool) (e : Event) :
    (s.raiseIf b e).csr.events = s.csr.events ||| (if b then e.bit else 0#12) := by
  cases b <;> simp [State.raiseIf]

@[simp] theorem State.raiseIf_rbStart (s : State) (b : Bool) (e : Event) :
    (s.raiseIf b e).csr.rbStart = s.csr.rbStart := by
  cases b <;> rfl

@[simp] theorem State.raiseIf_rbEnd (s : State) (b : Bool) (e : Event) :
    (s.raiseIf b e).csr.rbEnd = s.csr.rbEnd := by
  cases b <;> rfl

@[simp] theorem State.raiseIf_rbCount (s : State) (b : Bool) (e : Event) :
    (s.raiseIf b e).csr.rbCount = s.csr.rbCount := by
  cases b <;> rfl

@[simp] theorem State.raiseIf_underrunCnt (s : State) (b : Bool) (e : Event) :
    (s.raiseIf b e).csr.underrunCnt = s.csr.underrunCnt := by
  cases b <;> rfl

@[simp] theorem State.raiseIf_dropCnt (s : State) (b : Bool) (e : Event) :
    (s.raiseIf b e).csr.dropCnt = s.csr.dropCnt := by
  cases b <;> rfl

@[simp] theorem State.raiseIf_acceptCnt (s : State) (b : Bool) (e : Event) :
    (s.raiseIf b e).csr.acceptCnt = s.csr.acceptCnt := by
  cases b <;> rfl

@[simp] theorem State.raiseIf_deliverCnt (s : State) (b : Bool) (e : Event) :
    (s.raiseIf b e).csr.deliverCnt = s.csr.deliverCnt := by
  cases b <;> rfl

@[simp] theorem State.raiseIf_spc (s : State) (b : Bool) (e : Event) :
    (s.raiseIf b e).csr.spc = s.csr.spc := by
  cases b <;> rfl

@[simp] theorem State.raiseIf_targetLow (s : State) (b : Bool) (e : Event) :
    (s.raiseIf b e).csr.targetLow = s.csr.targetLow := by
  cases b <;> rfl

@[simp] theorem State.raiseIf_maxocc (s : State) (b : Bool) (e : Event) :
    (s.raiseIf b e).csr.maxocc = s.csr.maxocc := by
  cases b <;> rfl

@[simp] theorem State.raiseIf_scale (s : State) (b : Bool) (e : Event) :
    (s.raiseIf b e).csr.scale = s.csr.scale := by
  cases b <;> rfl

@[simp] theorem State.raiseIf_hostTickMs (s : State) (b : Bool) (e : Event) :
    (s.raiseIf b e).csr.hostTickMs = s.csr.hostTickMs := by
  cases b <;> rfl

@[simp] theorem State.raiseIf_corrMax (s : State) (b : Bool) (e : Event) :
    (s.raiseIf b e).csr.corrMax = s.csr.corrMax := by
  cases b <;> rfl

@[simp] theorem State.raiseIf_channels (s : State) (b : Bool) (e : Event) :
    (s.raiseIf b e).csr.channels = s.csr.channels := by
  cases b <;> rfl

@[simp] theorem State.raiseIf_waitMax (s : State) (b : Bool) (e : Event) :
    (s.raiseIf b e).csr.waitMax = s.csr.waitMax := by
  cases b <;> rfl

@[simp] theorem State.raiseIf_nativeRate (s : State) (b : Bool) (e : Event) :
    (s.raiseIf b e).csr.nativeRate = s.csr.nativeRate := by
  cases b <;> rfl

@[simp] theorem State.raiseIf_quality (s : State) (b : Bool) (e : Event) :
    (s.raiseIf b e).csr.quality = s.csr.quality := by
  cases b <;> rfl

@[simp] theorem State.raiseIf_ratio (s : State) (b : Bool) (e : Event) :
    (s.raiseIf b e).csr.ratio = s.csr.ratio := by
  cases b <;> rfl

@[simp] theorem State.raiseIf_lastIn (s : State) (b : Bool) (e : Event) :
    (s.raiseIf b e).csr.lastIn = s.csr.lastIn := by
  cases b <;> rfl

@[simp] theorem State.raiseIf_lastOutreq (s : State) (b : Bool) (e : Event) :
    (s.raiseIf b e).csr.lastOutreq = s.csr.lastOutreq := by
  cases b <;> rfl

@[simp] theorem State.raiseIf_lastGen (s : State) (b : Bool) (e : Event) :
    (s.raiseIf b e).csr.lastGen = s.csr.lastGen := by
  cases b <;> rfl

@[simp] theorem State.raiseIf_lastFq (s : State) (b : Bool) (e : Event) :
    (s.raiseIf b e).csr.lastFq = s.csr.lastFq := by
  cases b <;> rfl

@[simp] theorem State.raiseIf_frametime (s : State) (b : Bool) (e : Event) :
    (s.raiseIf b e).csr.frametime = s.csr.frametime := by
  cases b <;> rfl

@[simp] theorem State.raiseIf_refresh (s : State) (b : Bool) (e : Event) :
    (s.raiseIf b e).csr.refresh = s.csr.refresh := by
  cases b <;> rfl

@[simp] theorem State.raiseIf_refreshMin (s : State) (b : Bool) (e : Event) :
    (s.raiseIf b e).csr.refreshMin = s.csr.refreshMin := by
  cases b <;> rfl

@[simp] theorem State.raiseIf_refreshMax (s : State) (b : Bool) (e : Event) :
    (s.raiseIf b e).csr.refreshMax = s.csr.refreshMax := by
  cases b <;> rfl

@[simp] theorem State.raiseIf_refreshFallback (s : State) (b : Bool) (e : Event) :
    (s.raiseIf b e).csr.refreshFallback = s.csr.refreshFallback := by
  cases b <;> rfl

@[simp] theorem State.raiseIf_remainder (s : State) (b : Bool) (e : Event) :
    (s.raiseIf b e).csr.remainder = s.csr.remainder := by
  cases b <;> rfl

@[simp] theorem State.raiseIf_effRefresh (s : State) (b : Bool) (e : Event) :
    (s.raiseIf b e).csr.effRefresh = s.csr.effRefresh := by
  cases b <;> rfl

@[simp] theorem State.raiseIf_lastFrames (s : State) (b : Bool) (e : Event) :
    (s.raiseIf b e).csr.lastFrames = s.csr.lastFrames := by
  cases b <;> rfl

@[simp] theorem State.raiseIf_frameAcc (s : State) (b : Bool) (e : Event) :
    (s.raiseIf b e).csr.frameAcc = s.csr.frameAcc := by
  cases b <;> rfl

@[simp] theorem State.raiseIf_frameMult (s : State) (b : Bool) (e : Event) :
    (s.raiseIf b e).csr.frameMult = s.csr.frameMult := by
  cases b <;> rfl

@[simp] theorem State.raiseIf_decim (s : State) (b : Bool) (e : Event) :
    (s.raiseIf b e).csr.decim = s.csr.decim := by
  cases b <;> rfl

/-- What `raiseIf` does, once. -/
theorem State.raiseIf_eq (s : State) (b : Bool) (e : Event) :
    s.raiseIf b e
      = { s with csr := { s.csr with events := s.csr.events ||| (if b then e.bit else 0#12) } } := by
  cases b <;> simp [State.raiseIf, State.raise]

/-! ## `respond` and `deliver` -/

@[simp] theorem State.respond_params (s : State) (v : Word) : (s.respond v).params = s.params := rfl

@[simp] theorem State.respond_csr (s : State) (v : Word) : (s.respond v).csr = s.csr := rfl

@[simp] theorem State.respond_store (s : State) (v : Word) : (s.respond v).store = s.store := rfl

@[simp] theorem State.respond_sigma (s : State) (v : Word) : (s.respond v).sigma = s.sigma := rfl

@[simp] theorem State.respond_phase (s : State) (v : Word) : (s.respond v).phase = s.phase := rfl

@[simp] theorem State.respond_responses (s : State) (v : Word) : (s.respond v).responses = s.responses ++ [v] := rfl

@[simp] theorem State.respond_cmdIn (s : State) (v : Word) : (s.respond v).cmdIn = s.cmdIn := rfl

@[simp] theorem State.respond_sampleIn (s : State) (v : Word) : (s.respond v).sampleIn = s.sampleIn := rfl

@[simp] theorem State.respond_fillReq (s : State) (v : Word) : (s.respond v).fillReq = s.fillReq := rfl

@[simp] theorem State.respond_fillData (s : State) (v : Word) : (s.respond v).fillData = s.fillData := rfl

@[simp] theorem State.respond_sched (s : State) (v : Word) : (s.respond v).sched = s.sched := rfl

@[simp] theorem State.respond_turn (s : State) (v : Word) : (s.respond v).turn = s.turn := rfl

@[simp] theorem State.deliver_params (s : State) (xs : List Sample) : (s.deliver xs).params = s.params := rfl

@[simp] theorem State.deliver_csr (s : State) (xs : List Sample) : (s.deliver xs).csr = s.csr := rfl

@[simp] theorem State.deliver_store (s : State) (xs : List Sample) : (s.deliver xs).store = s.store := rfl

@[simp] theorem State.deliver_sigma (s : State) (xs : List Sample) : (s.deliver xs).sigma = s.sigma := rfl

@[simp] theorem State.deliver_phase (s : State) (xs : List Sample) : (s.deliver xs).phase = s.phase := rfl

@[simp] theorem State.deliver_responses (s : State) (xs : List Sample) : (s.deliver xs).responses = s.responses := rfl

@[simp] theorem State.deliver_cmdIn (s : State) (xs : List Sample) : (s.deliver xs).cmdIn = s.cmdIn := rfl

@[simp] theorem State.deliver_sampleIn (s : State) (xs : List Sample) : (s.deliver xs).sampleIn = s.sampleIn := rfl

@[simp] theorem State.deliver_fillReq (s : State) (xs : List Sample) : (s.deliver xs).fillReq = s.fillReq := rfl

@[simp] theorem State.deliver_fillData (s : State) (xs : List Sample) : (s.deliver xs).fillData = s.fillData ++ xs := rfl

@[simp] theorem State.deliver_sched (s : State) (xs : List Sample) : (s.deliver xs).sched = s.sched := rfl

@[simp] theorem State.deliver_turn (s : State) (xs : List Sample) : (s.deliver xs).turn = s.turn := rfl

/-! ## `drawn` -/

@[simp] theorem State.drawn_params (s : State) : s.drawn.params = s.params := by
  unfold State.drawn; split <;> rfl

@[simp] theorem State.drawn_csr (s : State) : s.drawn.csr = s.csr := by
  unfold State.drawn; split <;> rfl

@[simp] theorem State.drawn_store (s : State) : s.drawn.store = s.store := by
  unfold State.drawn; split <;> rfl

@[simp] theorem State.drawn_sigma (s : State) : s.drawn.sigma = s.sigma := by
  unfold State.drawn; split <;> rfl

@[simp] theorem State.drawn_phase (s : State) : s.drawn.phase = s.phase := by
  unfold State.drawn; split <;> rfl

@[simp] theorem State.drawn_responses (s : State) : s.drawn.responses = s.responses := by
  unfold State.drawn; split <;> rfl

@[simp] theorem State.drawn_cmdIn (s : State) : s.drawn.cmdIn = s.cmdIn := by
  unfold State.drawn; split <;> rfl

@[simp] theorem State.drawn_sampleIn (s : State) : s.drawn.sampleIn = s.sampleIn := by
  unfold State.drawn; split <;> rfl

@[simp] theorem State.drawn_fillReq (s : State) : s.drawn.fillReq = s.fillReq := by
  unfold State.drawn; split <;> rfl

@[simp] theorem State.drawn_fillData (s : State) : s.drawn.fillData = s.fillData := by
  unfold State.drawn; split <;> rfl

/-! ## `unlessClosed` -/

theorem State.unlessClosed_of_closed (s t : State) (h : s.csr.life = .closed) :
    s.unlessClosed t = s.raise .badCmd := by
  simp [State.unlessClosed, State.refuseCommand, h]

theorem State.unlessClosed_of_open (s t : State) (h : s.csr.life ≠ .closed) : s.unlessClosed t = t := by
  simp [State.unlessClosed, h]

end Sys2Proof.Machine
end

