-- ==== Sys2Proof/Laws/Resampler.lean ====
section
/-! SUPPORT. The laws of QUEUE's parts: the correction, the output block, and the snapshot step as one record
update. -/

namespace Sys2Proof.Machine

/-- The requested count, its clamp taken apart (41_resampler.md R135). -/
theorem correction_oreq (p : Params) (c : Csrs) (fq n1 : Nat) :
    (correction p c fq n1).oreq
      = min (if fq < c.targetLow.toNat then n1 + (c.targetLow.toNat - fq) * c.scale.toNat else n1)
          p.outMax := by
  simp [correction, Csrs.correctionStep]

/-- The ratio (41_resampler.md R134). -/
theorem correction_ratio (p : Params) (c : Csrs) (fq n1 : Nat) :
    (correction p c fq n1).ratio
      = if fq < c.targetLow.toNat then c.clampRatio (c.rawRatio (c.targetLow.toNat - fq)) else 65536 := rfl

/-- The ratio stays within CORR_MAX of 65536 (41_resampler.md R134; 10_state.md R36). -/
theorem clampRatio_bounds (c : Csrs) (raw : Nat) :
    c.clampRatio raw ≤ 65536 + c.corrMax.toNat ∧ 65536 - c.corrMax.toNat ≤ c.clampRatio raw := by
  unfold Csrs.clampRatio; omega

theorem correction_ratio_bounds (p : Params) (c : Csrs) (fq n1 : Nat) :
    1 ≤ (correction p c fq n1).ratio ∧ (correction p c fq n1).ratio ≤ 131071 := by
  have h := clampRatio_bounds c (c.rawRatio (c.targetLow.toNat - fq))
  have hc := c.corrMax.isLt
  rw [correction_ratio]
  split <;> omega

/-- Clamping to the 16 bits of s16, in the numbers of R139. -/
theorem clampSigned_16 (r : Int) : clampSigned 16 r = BitVec.ofInt 16 (min (max r (-32768)) 32767) := rfl

/-- A clamped integer is the nearest value of `n` bits, for every `n` that fits the unit of a sample. -/
theorem clampSigned_toInt (n : Nat) (r : Int) (h : n ≤ 16) :
    (clampSigned n r).toInt
      = min (max r (-((2 ^ (n - 1) : Nat) : Int))) (((2 ^ (n - 1) : Nat) : Int) - 1) := by
  have hp : 2 ^ (n - 1) ≤ 2 ^ 15 := Nat.pow_le_pow_right (by decide) (by omega)
  have h1 : 1 ≤ 2 ^ (n - 1) := Nat.one_le_two_pow
  unfold clampSigned
  rw [BitVec.toInt_ofInt]
  apply Int.bmod_eq_of_le <;> omega

/-- An output sample has `n` bits (00_scope.md R6, SBITS). -/
theorem saturate_range (n : Nat) (y : Binary32) (h : n ≤ 16) :
    -((2 ^ (n - 1) : Nat) : Int) ≤ (saturate n y).toInt ∧
      (saturate n y).toInt < ((2 ^ (n - 1) : Nat) : Int) := by
  have clamped : ∀ r, -((2 ^ (n - 1) : Nat) : Int) ≤ (clampSigned n r).toInt ∧
      (clampSigned n r).toInt < ((2 ^ (n - 1) : Nat) : Int) := by
    intro r
    have h1 : 1 ≤ 2 ^ (n - 1) := Nat.one_le_two_pow
    rw [clampSigned_toInt n r h]
    omega
  have zero : -((2 ^ (n - 1) : Nat) : Int) ≤ (0#16).toInt ∧
      (0#16).toInt < ((2 ^ (n - 1) : Nat) : Int) := by
    have h1 : 1 ≤ 2 ^ (n - 1) := Nat.one_le_two_pow
    simp only [BitVec.toInt_zero]
    omega
  unfold saturate
  dsimp only
  split_ifs
  all_goals first | exact clamped _ | exact zero

@[simp] theorem outputBlock_length (p : Params) (muted : Bool) (ys : List Binary32) :
    (outputBlock p muted ys).length = min p.outMax ys.length := by
  simp [outputBlock]

theorem outputBlock_muted (p : Params) (ys : List Binary32) :
    outputBlock p true ys = List.replicate (min p.outMax ys.length) silence := by
  simp [outputBlock, List.map_const']

/-- A block of a legal build is converted by `sat16` (41_resampler.md R139). -/
theorem outputBlock_unmuted (p : Params) (ys : List Binary32) (h : p.Legal) :
    outputBlock p false ys = (ys.take p.outMax).map sat16 := by
  obtain ⟨_, _, _, _, _, _, hs⟩ := h
  rw [outputBlock, hs]; rfl

/-- What the snapshot step does, once: the fields it writes, with the values of 41_resampler.md R130. -/
theorem queueSnapshot_eq (conv : Converter) (x : List Sample) (s : State) :
    ∃ xd fq k made, xd = decimate x s.csr.decim.toNat s.csr.channels.toNat ∧
      fq = s.csr.framesQueued ∧ k = correction s.params s.csr fq xd.length ∧
      made = conv s.sigma s.csr.quality s.csr.channels (BitVec.ofNat 32 k.ratio) k.oreq
        (xd.map toWork) ∧
      queueSnapshot conv x s =
        { s with
          sigma := made.1
          csr :=
            { s.csr with
              ratio := BitVec.ofNat 32 k.ratio
              lastIn := BitVec.ofNat 16 xd.length
              lastOutreq := BitVec.ofNat 16 k.oreq
              lastGen := BitVec.ofNat 16 (min s.params.outMax made.2.length)
              lastFq := BitVec.ofNat 32 fq
              events := s.csr.events
                ||| (if k.ratioClamped then Event.ratioClamp.bit else 0#12)
                ||| (if k.oreqClamped then Event.outreqClamp.bit else 0#12)
                ||| (if s.params.outMax < made.2.length then Event.srcLong.bit else 0#12) }
          phase :=
            if min s.params.outMax made.2.length = 0 then s.phase
            else .enqWait (outputBlock s.params s.csr.muted made.2) 0 } := by
  refine ⟨_, _, _, _, rfl, rfl, rfl, rfl, ?_⟩
  have he : ∀ b : List Sample, b.isEmpty = decide (b.length = 0) := by
    intro b; cases b <;> simp
  simp only [queueSnapshot, State.raiseIf_eq, he, outputBlock_length, decide_eq_true_eq]

end Sys2Proof.Machine
end

