-- ==== Sys2Proof/Laws/Store.lean ====
section
/-! SUPPORT. The laws of the sample store: read after write, and the canonical form is kept. -/

namespace Sys2Proof.Machine

/-! ## Cells -/

theorem lookupCell_of_lt (cells : List (Nat × Sample)) (i : Nat) (h : ∀ c ∈ cells, i < c.1) :
    lookupCell cells i = unwritten := by
  induction cells with
  | nil => rfl
  | cons c rest ih =>
    have hc : c.1 ≠ i := by have := h c (by simp); omega
    simp only [lookupCell, if_neg hc]
    exact ih fun d hd => h d (by simp [hd])

theorem mem_insertCell {cells : List (Nat × Sample)} {i : Nat} {v : Sample} {c : Nat × Sample}
    (h : c ∈ insertCell cells i v) : c = (i, v) ∧ v ≠ unwritten ∨ c ∈ cells := by
  induction cells with
  | nil =>
    by_cases hv : v = unwritten
    · simp [insertCell, hv] at h
    · simp [insertCell, hv] at h
      exact .inl ⟨h, hv⟩
  | cons d rest ih =>
    simp only [insertCell] at h
    split at h
    · split at h
      · exact .inr h
      · rename_i hv
        rcases List.mem_cons.1 h with h | h
        · exact .inl ⟨h, hv⟩
        · exact .inr h
    · split at h
      · split at h
        · exact .inr (List.mem_cons_of_mem _ h)
        · rename_i hv
          rcases List.mem_cons.1 h with h | h
          · exact .inl ⟨h, hv⟩
          · exact .inr (List.mem_cons_of_mem _ h)
      · rcases List.mem_cons.1 h with h | h
        · exact .inr (by simp [h])
        · exact (ih h).imp_right (List.mem_cons_of_mem _)

theorem lookupCell_insertCell (cells : List (Nat × Sample)) (i j : Nat) (v : Sample)
    (h : cells.Pairwise fun a b => a.1 < b.1) :
    lookupCell (insertCell cells i v) j = if j = i then v else lookupCell cells j := by
  induction cells with
  | nil =>
    by_cases hv : v = unwritten <;> by_cases hj : j = i
    all_goals simp [insertCell, lookupCell, hv, hj]
    intro h'; exact absurd h'.symm hj
  | cons d rest ih =>
    obtain ⟨k, w⟩ := d
    have hlt : ∀ c ∈ rest, k < c.1 := fun c hc => (List.pairwise_cons.1 h).1 c hc
    have hrest := (List.pairwise_cons.1 h).2
    simp only [insertCell]
    by_cases hik : i < k
    · rw [if_pos hik]
      have hnone : lookupCell ((k, w) :: rest) i = unwritten :=
        lookupCell_of_lt _ _ (by
          intro c hc
          rcases List.mem_cons.1 hc with rfl | hc
          · exact hik
          · have := hlt c hc; omega)
      by_cases hj : j = i
      · subst hj
        by_cases hv : v = unwritten
        · simp [hv, hnone]
        · simp [hv, lookupCell]
      · by_cases hv : v = unwritten
        · simp [hv, hj]
        · simp [hv, hj, lookupCell, Ne.symm hj]
    · rw [if_neg hik]
      by_cases hk : i = k
      · rw [if_pos hk]
        subst hk
        by_cases hj : j = i
        · subst hj
          by_cases hv : v = unwritten
          · simp [hv, lookupCell_of_lt rest j hlt]
          · simp [hv, lookupCell]
        · by_cases hv : v = unwritten <;> simp [hv, hj, lookupCell, Ne.symm hj]
      · rw [if_neg hk]
        simp only [lookupCell]
        by_cases hj : k = j
        · subst hj
          simp [Ne.symm hk]
        · simp only [if_neg hj]
          exact ih hrest

theorem insertCell_pairwise (cells : List (Nat × Sample)) (i : Nat) (v : Sample)
    (h : cells.Pairwise fun a b => a.1 < b.1) :
    (insertCell cells i v).Pairwise fun a b => a.1 < b.1 := by
  induction cells with
  | nil => by_cases hv : v = unwritten <;> simp [insertCell, hv]
  | cons d rest ih =>
    obtain ⟨k, w⟩ := d
    have hlt := (List.pairwise_cons.1 h).1
    have hrest := (List.pairwise_cons.1 h).2
    simp only [insertCell]
    split
    · rename_i hik
      split
      · exact h
      · refine List.pairwise_cons.2 ⟨fun c hc => ?_, h⟩
        rcases List.mem_cons.1 hc with rfl | hc
        · exact hik
        · exact hik.trans (hlt c hc)
    · split
      · rename_i hk
        subst hk
        split
        · exact hrest
        · exact List.pairwise_cons.2 ⟨hlt, hrest⟩
      · rename_i h1 h2
        refine List.pairwise_cons.2 ⟨fun c hc => ?_, ih hrest⟩
        rcases mem_insertCell hc with ⟨rfl, _⟩ | hc
        · show k < i; omega
        · exact hlt c hc

/-! ## The store -/

/-- A read after a write to the same element gives the value written; another element reads as before. -/
theorem Store.read_write (m : Store) (i j : Nat) (v : Sample) (h : m.wf) :
    (m.write i v).read j = if j = i then v else m.read j :=
  lookupCell_insertCell m.cells i j v h.1

/-- A write keeps the canonical form. -/
theorem Store.wf_write (m : Store) (i : Nat) (v : Sample) (h : m.wf) : (m.write i v).wf := by
  refine ⟨insertCell_pairwise m.cells i v h.1, fun c hc => ?_⟩
  rcases mem_insertCell hc with ⟨rfl, hv⟩ | hc
  · exact hv
  · exact h.2 c hc

/-- A block write keeps the canonical form. -/
theorem Store.wf_writeBlock (m : Store) (cap at_ : Nat) (xs : List Sample) (h : m.wf) :
    (m.writeBlock cap at_ xs).wf := by
  induction xs generalizing m at_ with
  | nil => exact h
  | cons v rest ih => exact ih _ _ (m.wf_write _ _ h)

/-- A block write lists no index at or above `cap` that was not listed. -/
theorem Store.bounded_writeBlock (m : Store) (cap at_ : Nat) (xs : List Sample) (hcap : 0 < cap)
    (h : ∀ c ∈ m.cells, c.1 < cap) : ∀ c ∈ (m.writeBlock cap at_ xs).cells, c.1 < cap := by
  induction xs generalizing m at_ with
  | nil => exact h
  | cons v rest ih =>
    refine ih _ _ fun c hc => ?_
    rcases mem_insertCell hc with ⟨rfl, _⟩ | hc
    · exact Nat.mod_lt _ hcap
    · exact h c hc

/-- Equal reads everywhere mean equal stores: the form is canonical. -/
theorem Store.ext_read (m n : Store) (hm : m.wf) (hn : n.wf) (h : ∀ i, m.read i = n.read i) : m = n := by
  obtain ⟨a⟩ := m
  obtain ⟨b⟩ := n
  simp only [Store.mk.injEq]
  simp only [Store.wf, Store.read] at hm hn h
  induction a generalizing b with
  | nil =>
    cases b with
    | nil => rfl
    | cons d rest =>
      have := h d.1
      simp only [lookupCell, if_true] at this
      exact absurd this.symm (hn.2 d (by simp))
  | cons c arest ih =>
    cases b with
    | nil =>
      have := h c.1
      simp only [lookupCell, if_true] at this
      exact absurd this (hm.2 c (by simp))
    | cons d brest =>
      have hma := List.pairwise_cons.1 hm.1
      have hnb := List.pairwise_cons.1 hn.1
      have key : c.1 = d.1 := by
        rcases Nat.lt_trichotomy c.1 d.1 with hlt | heq | hgt
        · have h1 := h c.1
          rw [lookupCell_of_lt (d :: brest) c.1 (by
            intro e he
            rcases List.mem_cons.1 he with rfl | he
            · exact hlt
            · exact hlt.trans (hnb.1 e he))] at h1
          simp only [lookupCell, if_true] at h1
          exact absurd h1 (hm.2 c (by simp))
        · exact heq
        · have h1 := h d.1
          rw [lookupCell_of_lt (c :: arest) d.1 (by
            intro e he
            rcases List.mem_cons.1 he with rfl | he
            · exact hgt
            · exact hgt.trans (hma.1 e he))] at h1
          simp only [lookupCell, if_true] at h1
          exact absurd h1.symm (hn.2 d (by simp))
      have hv : c.2 = d.2 := by
        have h1 := h c.1
        simpa [lookupCell, key] using h1
      have hrest : arest = brest := by
        refine ih ⟨hma.2, fun e he => hm.2 e (List.mem_cons_of_mem _ he)⟩ brest
          ⟨hnb.2, fun e he => hn.2 e (List.mem_cons_of_mem _ he)⟩ fun i => ?_
        have h1 := h i
        simp only [lookupCell, key] at h1
        by_cases hi : d.1 = i
        · rw [lookupCell_of_lt arest i fun e he => by have := hma.1 e he; omega,
            lookupCell_of_lt brest i fun e he => by have := hnb.1 e he; omega]
        · simpa [hi] using h1
      rw [hrest, show c = d from Prod.ext key hv]

end Sys2Proof.Machine
end

