-- ==== Sys2Proof/Laws/Ring.lean ====
section
/-! SUPPORT. The laws of the ring buffer's operations: what a block write, a dequeue, a commit and a wait step
can do, said once. -/

namespace Sys2Proof.Machine

/-! ## Block writes -/

theorem add_mod_ne {cap p i j : Nat} (hi : i < cap) (hj : j < cap) (h : i ≠ j) :
    (p + i) % cap ≠ (p + j) % cap := by
  intro he
  have h1 := Nat.ModEq.add_left_cancel' p he
  have h2 : i % cap = j % cap := h1
  rw [Nat.mod_eq_of_lt hi, Nat.mod_eq_of_lt hj] at h2
  exact h h2

/-- A block write leaves every index it does not write. -/
theorem Store.read_writeBlock_other (m : Store) (cap at_ j : Nat) (xs : List Sample) (h : m.wf)
    (hj : ∀ i, i < xs.length → j ≠ (at_ + i) % cap) : (m.writeBlock cap at_ xs).read j = m.read j := by
  induction xs generalizing m at_ with
  | nil => rfl
  | cons v rest ih =>
    have h0 : j ≠ at_ % cap := by simpa using hj 0 (by simp)
    show ((m.write (at_ % cap) v).writeBlock cap (at_ + 1) rest).read j = _
    rw [ih _ _ (m.wf_write _ _ h), Store.read_write _ _ _ _ h, if_neg h0]
    intro i hi
    have := hj (i + 1) (by simpa using hi)
    rwa [show at_ + 1 + i = at_ + (i + 1) by omega]

/-- A block write puts the block's elements at consecutive indices mod CAP. -/
theorem Store.read_writeBlock_mem (m : Store) (cap at_ i : Nat) (xs : List Sample) (h : m.wf)
    (hcap : xs.length ≤ cap) (hi : i < xs.length) :
    (m.writeBlock cap at_ xs).read ((at_ + i) % cap) = xs.getD i silence := by
  induction xs generalizing m at_ i with
  | nil => simp at hi
  | cons v rest ih =>
    simp only [List.length_cons] at hcap hi
    show ((m.write (at_ % cap) v).writeBlock cap (at_ + 1) rest).read _ = _
    cases i with
    | zero =>
      rw [Store.read_writeBlock_other _ _ _ _ _ (m.wf_write _ _ h), Store.read_write _ _ _ _ h,
        if_pos (by rw [Nat.add_zero])]
      · rfl
      · intro k hk
        have := add_mod_ne (cap := cap) (p := at_) (i := 0) (j := k + 1) (by omega) (by omega) (by omega)
        rwa [show at_ + 1 + k = at_ + (k + 1) by omega]
    | succ i =>
      have := ih (m.write (at_ % cap) v) (at_ + 1) i (m.wf_write _ _ h) (by omega) (by omega)
      rw [show at_ + 1 + i = at_ + (i + 1) by omega] at this
      rw [this]; rfl

/-! ## The window -/

@[simp] theorem State.window_length (s : State) (n : Nat) : (s.window n).length = n := by
  simp [State.window]

@[simp] theorem State.contents_length (s : State) : s.contents.length = s.csr.rbCount.toNat := by
  simp [State.contents]

/-- The `i`-th element of a window. -/
theorem State.window_getElem (s : State) (n i : Nat) (h : i < (s.window n).length) :
    (s.window n)[i] = s.store.read ((s.csr.rbStart.toNat + i) % s.params.cap) := by
  simp [State.window]

/-- A window reads the store, RB_START and CAP, and nothing else. -/
theorem State.window_congr (s t : State) (n : Nat) (hs : s.csr.rbStart = t.csr.rbStart)
    (hp : s.params = t.params)
    (hr : ∀ i, i < n → s.store.read ((s.csr.rbStart.toNat + i) % s.params.cap)
      = t.store.read ((s.csr.rbStart.toNat + i) % s.params.cap)) : s.window n = t.window n := by
  simp only [State.window, ← hs, ← hp]
  exact List.map_congr_left fun i hi => hr i (List.mem_range.1 hi)

theorem State.window_take (s : State) (n k : Nat) : (s.window n).take k = s.window (min k n) := by
  simp [State.window, ← List.map_take, List.take_range]

/-- A window that starts `r` elements later is the rest of the window. -/
theorem State.window_drop (s t : State) (n r : Nat) (hp : t.params = s.params) (hm : t.store = s.store)
    (hs : t.csr.rbStart.toNat = (s.csr.rbStart.toNat + r) % s.params.cap) :
    (s.window n).drop r = t.window (n - r) := by
  apply List.ext_getElem
  · simp
  · intro i h1 h2
    rw [List.getElem_drop, State.window_getElem, State.window_getElem, hp, hm, hs, Nat.mod_add_mod,
      Nat.add_assoc]

/-! ## The invariant in the form proofs use -/

/-- RB_END is RB_COUNT behind RB_START, mod CAP (10_state.md R29). -/
theorem State.RingInv.end_eq {s : State} (h : s.RingInv) :
    s.csr.rbEnd.toNat = (s.csr.rbStart.toNat + s.csr.rbCount.toNat) % s.params.cap := by
  obtain ⟨h1, h2, h3, h4⟩ := h
  have h5 : ((s.csr.rbEnd.toNat : Int)) % (s.params.cap : Int)
      = ((s.csr.rbStart.toNat : Int) + (s.csr.rbCount.toNat : Int)) % (s.params.cap : Int) := by
    have h := Int.ModEq.add_left (s.csr.rbStart.toNat : Int) h4
    rwa [add_sub_cancel] at h
  have h6 : s.csr.rbEnd.toNat % s.params.cap
      = (s.csr.rbStart.toNat + s.csr.rbCount.toNat) % s.params.cap := by exact_mod_cast h5
  rwa [Nat.mod_eq_of_lt h2] at h6

/-- The invariant from the form proofs use. -/
theorem State.RingInv.of_end_eq {s : State} (h1 : s.csr.rbStart.toNat < s.params.cap)
    (h3 : s.csr.rbCount.toNat ≤ s.params.cap)
    (h4 : s.csr.rbEnd.toNat = (s.csr.rbStart.toNat + s.csr.rbCount.toNat) % s.params.cap) : s.RingInv := by
  refine ⟨h1, ?_, h3, ?_⟩
  · rw [h4]; exact Nat.mod_lt _ (by omega)
  · rw [h4]
    have : (((s.csr.rbStart.toNat + s.csr.rbCount.toNat) % s.params.cap : Nat) : Int)
        ≡ (s.csr.rbStart.toNat : Int) + (s.csr.rbCount.toNat : Int) [ZMOD (s.params.cap : Int)] := by
      push_cast
      exact Int.mod_modEq _ _
    have h := Int.ModEq.sub_right (s.csr.rbStart.toNat : Int) this
    rwa [add_sub_cancel_left] at h

/-! ## FILL's dequeue (40_ring_buffer.md R112) -/

/-- What a dequeue does, once: the fields it writes, with the values of R112. -/
theorem State.dequeue_eq (s : State) (k : Nat) :
    s.dequeue k =
      { s with
        fillData := s.fillData
          ++ (s.window (s.fillCount k) ++ List.replicate (k - s.fillCount k) silence)
        csr :=
          { s.csr with
            rbStart := BitVec.ofNat 32 ((s.csr.rbStart.toNat + s.fillCount k) % s.params.cap)
            rbCount := BitVec.ofNat 32 (s.csr.rbCount.toNat - s.fillCount k)
            deliverCnt := s.csr.deliverCnt + BitVec.ofNat 32 (s.fillCount k)
            underrunCnt := if s.fillCount k < k then s.csr.underrunCnt + 1#32 else s.csr.underrunCnt
            events := s.csr.events ||| (if s.fillCount k < k then Event.underrun.bit else 0#12) } } := by
  by_cases h : s.fillCount k < k <;>
    simp [State.dequeue, State.deliver, State.raiseIf_eq, h]

/-! ## The commit (40_ring_buffer.md R117) -/

/-- What a commit does, once: the fields it writes, with the values of R117. -/
theorem State.commit_eq (s : State) (block : List Sample) :
    s.commit block =
      { s with
        store := s.store.writeBlock s.params.cap s.csr.rbEnd.toNat (block.take (s.fits block.length))
        phase := .idle
        csr :=
          { s.csr with
            rbEnd := BitVec.ofNat 32 ((s.csr.rbEnd.toNat + s.fits block.length) % s.params.cap)
            rbCount := BitVec.ofNat 32 (s.csr.rbCount.toNat + s.fits block.length)
            acceptCnt := s.csr.acceptCnt + BitVec.ofNat 32 (s.fits block.length)
            dropCnt := s.csr.dropCnt + BitVec.ofNat 32 (block.length - s.fits block.length)
            events := s.csr.events
              ||| (if s.fits block.length < block.length then Event.drop.bit else 0#12) } } := by
  by_cases h : s.fits block.length < block.length <;>
    simp [State.commit, State.raiseIf_eq, h]

theorem State.fits_le (s : State) (g : Nat) : s.fits g ≤ g := Nat.min_le_left _ _

/-- A commit's RB_COUNT as a number. -/
theorem State.commit_rbCount_toNat (s : State) (block : List Sample) (hl : s.params.Legal)
    (h : s.csr.rbCount.toNat ≤ s.params.cap) :
    (s.commit block).csr.rbCount.toNat = s.csr.rbCount.toNat + s.fits block.length := by
  have h1 : s.fits block.length ≤ s.params.cap - s.csr.rbCount.toNat := Nat.min_le_right _ _
  have h2 := hl.2.1
  rw [State.commit_eq]
  simp only [BitVec.toNat_ofNat]
  exact Nat.mod_eq_of_lt (by omega)

/-! ## The wait step (40_ring_buffer.md R115) -/

/-- When a block of `g` samples is held. -/
theorem State.hold_iff (s : State) (g : Nat) :
    s.hold g = true ↔ s.limit - min g s.limit < s.csr.rbCount.toNat := by simp [State.hold]

/-- What a wait step can do, once: nothing in IDLE, a commit, a poll, or a commit behind WAIT_TIMEOUT. -/
theorem State.enqueueStep_cases (s : State) :
    s.phase = .idle ∧ s.enqueueStep = s ∨
      ∃ block polls, s.phase = .enqWait block polls ∧
        (s.hold block.length = false ∧ s.enqueueStep = s.commit block ∨
          s.hold block.length = true ∧ polls < s.csr.waitMax.toNat ∧
            s.enqueueStep = { s with phase := .enqWait block (polls + 1) } ∨
          s.hold block.length = true ∧ s.csr.waitMax.toNat ≤ polls ∧
            s.enqueueStep = (s.raise .waitTimeout).commit block) := by
  unfold State.enqueueStep
  cases hp : s.phase with
  | idle => simp
  | enqWait block polls =>
    refine .inr ⟨block, polls, rfl, ?_⟩
    by_cases hh : s.hold block.length
    · by_cases hw : polls < s.csr.waitMax.toNat
      · exact .inr (.inl ⟨hh, hw, by simp [hh, hw]⟩)
      · exact .inr (.inr ⟨hh, by omega, by simp [hh, hw]⟩)
    · exact .inl ⟨by simpa using hh, by simp [hh]⟩

end Sys2Proof.Machine
end

