-- ==== Sys2Proof/Laws/Step.lean ====
section
/-! SUPPORT. What a step can do, said once: every meaning is total on states, and a step is a wait step, an
instruction's effect or a refused word, on a state that differs from the old one in its ports and schedule
only. -/

namespace Sys2Proof.Machine

/-! ## Meanings are total -/

/-- The next state that a meaning answers. -/
def effect (i : Instr) (s : State) : State :=
  match exec i s with
  | .next t => t
  | .fault _ => s
  | .refused _ => s

/-- Every instruction's meaning answers a next state, in every state. -/
theorem exec_eq (i : Instr) (s : State) : exec i s = .next (effect i s) := by cases i <;> rfl

/-- What a meaning answers is its effect. -/
theorem exec_next_iff {i : Instr} {s t : State} : exec i s = .next t ↔ t = effect i s := by
  rw [exec_eq]
  constructor
  · intro h; injection h with h; exact h.symm
  · rintro rfl; rfl

/-! ## The effects, each in the words of its meaning -/

theorem effect_openDev (f : Bool) (s : State) :
    effect (.openDev f) s =
      { s with
        csr := { Csrs.reset with life := if f then .active else .nullsink }
        sigma := Config.srcInit Csrs.reset.quality
        phase := .idle
        responses := [] } := rfl

theorem effect_close (s : State) : effect .close s = { s with csr := { s.csr with life := .closed } } := rfl

theorem effect_tick (s : State) : effect .tick s = s.unlessClosed (tickCommand s) := rfl

theorem effect_queue (x : List Sample) (s : State) :
    effect (.queue x) s = s.unlessClosed (queueCommand Config.src x s) := rfl

theorem effect_setspeed (m : BitVec 8) (s : State) :
    effect (.setspeed m) s = s.unlessClosed (setspeedCommand m s) := rfl

theorem effect_pause (s : State) :
    effect .pause s = s.unlessClosed { s with csr := { s.csr with paused := true } } := rfl

theorem effect_unpause (s : State) :
    effect .unpause s = s.unlessClosed { s with csr := { s.csr with paused := false } } := rfl

theorem effect_setmute (f : Bool) (s : State) :
    effect (.setmute f) s = s.unlessClosed { s with csr := { s.csr with muted := f } } := rfl

theorem effect_rehash (q : BitVec 4) (rate : BitVec 20) (s : State) :
    effect (.rehash q rate) s = s.unlessClosed (rehashCommand q rate s) := rfl

theorem effect_csrw (a : BitVec 8) (v : Word) (s : State) :
    effect (.csrw a v) s = s.unlessClosed (s.writeCsr a v) := rfl

theorem effect_csrr (a : BitVec 8) (s : State) : effect (.csrr a) s = s.readCsr a := rfl

theorem effect_enqraw (x : List Sample) (s : State) :
    effect (.enqraw x) s = s.unlessClosed (enqrawCommand x s) := rfl

theorem effect_fill (k : Length) (s : State) : effect (.fill k) s = fillRequest k.toNat s := rfl

/-! ## The chosen step -/

/-- The two states differ at most in what stands on the input ports and in the schedule. -/
structure SameMachine (s u : State) : Prop where
  params : u.params = s.params
  csr : u.csr = s.csr
  store : u.store = s.store
  sigma : u.sigma = s.sigma
  phase : u.phase = s.phase
  responses : u.responses = s.responses
  fillData : u.fillData = s.fillData

theorem SameMachine.refl (s : State) : SameMachine s s := ⟨rfl, rfl, rfl, rfl, rfl, rfl, rfl⟩

theorem SameMachine.drawn (s : State) : SameMachine s s.drawn := by
  constructor <;> simp

theorem SameMachine.trans {s u w : State} (h : SameMachine s u) (h' : SameMachine u w) :
    SameMachine s w := by
  constructor
  · rw [h'.params, h.params]
  · rw [h'.csr, h.csr]
  · rw [h'.store, h.store]
  · rw [h'.sigma, h.sigma]
  · rw [h'.phase, h.phase]
  · rw [h'.responses, h.responses]
  · rw [h'.fillData, h.fillData]

/-- What the producer's step can be. -/
theorem State.producerMove_cases (s : State) :
    s.phase.waiting = true ∧ s.producerMove = .wait s ∨
      s.phase = .idle ∧
        (∃ t i, takeFrame s.cmdIn s.sampleIn = some t ∧ decode t.frame = .ok i ∧
            s.producerMove = .run i { s with cmdIn := t.cmdRest, sampleIn := t.sampleRest } ∨
          ∃ t e, takeFrame s.cmdIn s.sampleIn = some t ∧ decode t.frame = .error e ∧
            s.producerMove = .refuse { s with cmdIn := t.cmdRest, sampleIn := t.sampleRest }) ∨
      s.phase = .idle ∧ takeFrame s.cmdIn s.sampleIn = none ∧
        s.producerMove = .stuck (if s.cmdIn.isEmpty then .portsEmpty else .awaitingTrailingWords) := by
  unfold State.producerMove
  cases hp : s.phase with
  | enqWait b n => simp [Phase.waiting]
  | idle =>
    cases ht : takeFrame s.cmdIn s.sampleIn with
    | none => simp [Phase.waiting]
    | some t =>
      cases hd : decode t.frame with
      | ok i => exact .inr (.inl ⟨rfl, t, i, .inl ⟨rfl, hd, by simp [hd]⟩⟩)
      | error e => exact .inr (.inl ⟨rfl, t, .close, .inr ⟨t, e, rfl, hd, by simp [hd]⟩⟩)

/-- The chosen step is one agent's, on the same machine. -/
theorem State.select_eq (s : State) :
    ∃ w, SameMachine s w ∧ (s.select = w.producerMove ∨ s.select = w.consumerMove) := by
  unfold State.select
  by_cases hc : s.consumerReady
  · by_cases hp : s.producerReady
    · cases ha : s.chosen
      · exact ⟨_, .drawn s, .inl (by simp [hc, hp])⟩
      · exact ⟨_, .drawn s, .inr (by simp [hc, hp])⟩
    · exact ⟨_, .refl s, .inr (by simp [hc, hp])⟩
  · exact ⟨_, .refl s, .inl (by simp [hc])⟩

/-- A step that acts on the machine `s`, its words taken off the ports: a wait step only while waiting, a
command only in IDLE. -/
def ActsOn (s : State) (m : Move) : Prop :=
  match m with
  | .wait u => SameMachine s u ∧ s.phase.waiting = true
  | .run i u => SameMachine s u ∧ (s.phase = .idle ∨ ∃ k, i = .fill k)
  | .refuse u => SameMachine s u ∧ s.phase = .idle
  | .stuck _ => True

theorem State.producerMove_acts {s w : State} (hw : SameMachine s w) : ActsOn s w.producerMove := by
  have hp := hw.phase
  have took : ∀ t : Framed, SameMachine s { w with cmdIn := t.cmdRest, sampleIn := t.sampleRest } :=
    fun t => hw.trans ⟨rfl, rfl, rfl, rfl, rfl, rfl, rfl⟩
  rcases w.producerMove_cases with ⟨h, he⟩ | ⟨h, hc⟩ | ⟨_, _, he⟩
  · rw [he]; exact ⟨hw, by rw [← hp, h]⟩
  · rw [hp] at h
    rcases hc with ⟨t, i, ⟨_, _, he⟩ | ⟨t', e, _, _, he⟩⟩
    · rw [he]; exact ⟨took t, .inl h⟩
    · rw [he]; exact ⟨took t', h⟩
  · rw [he]; exact True.intro

theorem State.consumerMove_acts {s w : State} (hw : SameMachine s w) : ActsOn s w.consumerMove := by
  unfold State.consumerMove
  cases w.fillReq with
  | nil => exact True.intro
  | cons k rest => exact ⟨hw.trans ⟨rfl, rfl, rfl, rfl, rfl, rfl, rfl⟩, .inr ⟨k, rfl⟩⟩

/-- The chosen step acts on the same machine, its words taken off the ports. -/
theorem State.select_acts (s : State) : ActsOn s s.select := by
  obtain ⟨w, hw, h | h⟩ := s.select_eq
  · rw [h]; exact State.producerMove_acts hw
  · rw [h]; exact State.consumerMove_acts hw

/-- What a step that answers next can be, once. -/
theorem step_cases {s t : State} (h : step s = .next t) :
    (∃ u, s.select = .wait u ∧ SameMachine s u ∧ s.phase.waiting = true ∧ t = u.enqueueStep) ∨
      (∃ i u, s.select = .run i u ∧ SameMachine s u ∧ (s.phase = .idle ∨ ∃ k, i = .fill k) ∧
        t = effect i u) ∨
      ∃ u, s.select = .refuse u ∧ SameMachine s u ∧ s.phase = .idle ∧ t = u.refuseCommand := by
  have hs := s.select_acts
  unfold step at h
  cases hsel : s.select with
  | wait u =>
    rw [hsel] at h hs
    simp only [Move.perform, Host.Outcome.next.injEq] at h
    exact .inl ⟨u, rfl, hs.1, hs.2, h.symm⟩
  | run i u =>
    rw [hsel] at h hs
    simp only [Move.perform] at h
    exact .inr (.inl ⟨i, u, rfl, hs.1, hs.2, exec_next_iff.1 h⟩)
  | refuse u =>
    rw [hsel] at h hs
    simp only [Move.perform, Host.Outcome.next.injEq] at h
    exact .inr (.inr ⟨u, rfl, hs.1, hs.2, h.symm⟩)
  | stuck r =>
    rw [hsel] at h
    simp [Move.perform] at h

/-! ## Several steps -/

@[simp] theorem runSteps_zero (s : State) : runSteps 0 s = .next s := rfl

/-- A run of one step more, by its first step. -/
theorem runSteps_succ {n : Nat} {s u : State} (h : step s = .next u) :
    runSteps (n + 1) s = runSteps n u := by
  have h' : Sys2Proof.core.step s = .next u := h
  simp only [runSteps, Host.Core.run, h']
  rfl

@[simp] theorem producerSteps_zero (s : State) : producerSteps 0 s = 0 := rfl

/-- The producer's steps in a run of one step more, by its first step. -/
theorem producerSteps_succ {n : Nat} {s u : State} (h : step s = .next u) :
    producerSteps (n + 1) s = (if s.select.isConsumers then 0 else 1) + producerSteps n u := by
  simp [producerSteps, h]

end Sys2Proof.Machine
end

