-- ==== Sys2Proof/Tests/Slice0.lean ====
section
/-! SUPPORT. Tests of the model's own. Expected values are taken from spec/: the encodings of 30_encoding.md, the
worked examples of the rules and the vectors of 95_test_vectors.md, never from the model. The witnesses show,
for each obligation with hypotheses, a state and operands that meet them together. -/

namespace Sys2Proof.Tests

open Sys2Proof Sys2Proof.Machine

/-! ## States the tests start from -/

/-- The reset state after OPEN 1: ACTIVE, every other register at its reset value. -/
def opened : State := { State.reset with csr := { Csrs.reset with life := .active } }

/-- `opened` with a store of 8 elements and scratch of 4 and 8, as in 95_test_vectors.md program P3. -/
def tiny : State := { opened with params := { cap := 8, inMax := 4, outMax := 8, chMax := 2, sbits := 16 } }

/-- Three stored samples 10, 20, 30 that wrap past index 7. -/
def stocked : State :=
  { tiny with
    store := { cells := [(0, 30#16), (6, 10#16), (7, 20#16)] }
    csr := { tiny.csr with rbStart := 6#32, rbEnd := 1#32, rbCount := 3#32, acceptCnt := 3#32 } }

/-- Program P3 of 95_test_vectors.md before its step 6: 7 samples at indices 4 to 7 and 0 to 2, no wait. -/
def nearlyFull : State :=
  { tiny with
    csr := { tiny.csr with rbStart := 4#32, rbEnd := 3#32, rbCount := 7#32, waitMax := 0#32 } }

/-- `s` with one command's words on the ports. -/
def withCommand (s : State) (words : List Word) (samples : List Sample) : State :=
  { s with cmdIn := words, sampleIn := samples }

/-- `tiny` with an enqueue of two samples waiting behind a full store. -/
def waiting : State :=
  { tiny with csr := { tiny.csr with rbCount := 8#32 }, phase := .enqWait [1#16, 2#16] 0 }

/-- SRC_ZOH, the sample-and-hold oracle of 95_test_vectors.md section 0. -/
def zoh : Converter := fun sigma _ _ _ oreq x =>
  if x.length = 0 then (sigma, [])
  else (sigma, (List.range oreq).map fun j => x.getD (j * x.length / oreq) 0#32)

/-! ## WellFormed refuses what has no encoding (30_encoding.md R83) -/

theorem test_queue_payload_of_65536_is_ill_formed :
    ¬ (Instr.queue (List.replicate 65536 0#16)).WellFormed := by
  simp only [Instr.WellFormed, PayloadFits, List.length_replicate]; omega

theorem test_enqraw_payload_of_65536_is_ill_formed :
    ¬ (Instr.enqraw (List.replicate 65536 0#16)).WellFormed := by
  simp only [Instr.WellFormed, PayloadFits, List.length_replicate]; omega

theorem test_payload_of_65535_is_well_formed :
    (Instr.queue (List.replicate 65535 0#16)).WellFormed ∧
      (Instr.enqraw (List.replicate 65535 0#16)).WellFormed := by
  simp only [Instr.WellFormed, PayloadFits, List.length_replicate]; omega

/-! ## Decoding: words written out from 30_encoding.md R81 to R88 -/

/-- OP 0001, 27 zeros, F = 1. -/
theorem test_decode_open : decodeTableWord 32 0b00010000000000000000000000000001 = some (.openDev true) := by
  decide

/-- OP 0010, 28 zeros. -/
theorem test_decode_close : decodeTableWord 32 0b00100000000000000000000000000000 = some .close := by decide

/-- OP 0011, 28 zeros. -/
theorem test_decode_tick : decodeTableWord 32 0b00110000000000000000000000000000 = some .tick := by decide

/-- OP 0100, 12 zeros, N = 2, then the samples 5 and -1 from bit 32 on. -/
theorem test_decode_queue :
    decodeTableWord 64 0b1111111111111111_0000000000000101_0100000000000000_0000000000000010
      = some (.queue [5#16, 0xFFFF#16]) := by decide

/-- OP 0101, 20 zeros, M = 255. -/
theorem test_decode_setspeed : decodeTableWord 32 0b01010000000000000000000011111111 = some (.setspeed 255#8) := by
  decide

/-- OP 0110, 28 zeros. -/
theorem test_decode_pause : decodeTableWord 32 0b01100000000000000000000000000000 = some .pause := by decide

/-- OP 0111, 28 zeros. -/
theorem test_decode_unpause : decodeTableWord 32 0b01110000000000000000000000000000 = some .unpause := by
  decide

/-- OP 1000, 27 zeros, F = 1. -/
theorem test_decode_setmute : decodeTableWord 32 0b10000000000000000000000000000001 = some (.setmute true) := by
  decide

/-- OP 1001, Q = 1, RATE = 44100 (20 bits), 4 zeros (95_test_vectors.md section 2.6). -/
theorem test_decode_rehash :
    decodeTableWord 32 0b1001_0001_00001010110001000100_0000 = some (.rehash 1#4 44100#20) := by decide

/-- OP 1010, 20 zeros, ADDR = 0x17, then the data word 0xFFFFFFFF. -/
theorem test_decode_csrw :
    decodeTableWord 64 0b11111111111111111111111111111111_10100000000000000000000000010111
      = some (.csrw 0x17#8 0xFFFFFFFF#32) := by decide

/-- OP 1011, 20 zeros, ADDR = 0x28. -/
theorem test_decode_csrr : decodeTableWord 32 0b10110000000000000000000000101000 = some (.csrr 0x28#8) := by
  decide

/-- OP 1100, 12 zeros, N = 1, then the sample -32768. -/
theorem test_decode_enqraw :
    decodeTableWord 48 0b1000000000000000_1100000000000000_0000000000000001
      = some (.enqraw [0x8000#16]) := by decide

/-- 16 bits are a fill request (R88). -/
theorem test_decode_fill : decodeTableWord 16 0b1111111111111111 = some (.fill 65535#16) := by decide

/-- Reserved opcodes and the all-zero word (R86 (1), R93). -/
theorem test_decode_refuses_reserved_opcodes :
    decodeTableWord 32 0x00000000 = none ∧ decodeTableWord 32 0xD0000000 = none ∧
      decodeTableWord 32 0xE0000000 = none ∧ decodeTableWord 32 0xF0000000 = none := by decide

/-- One reserved bit set in each format (R86 (2); 95_test_vectors.md sections 2.6 and 2.9). -/
theorem test_decode_refuses_reserved_bits :
    decodeTableWord 32 0x10000002 = none ∧ decodeTableWord 32 0x28000000 = none ∧
      decodeTableWord 32 0x40010000 = none ∧ decodeTableWord 32 0x50000104 = none ∧
      decodeTableWord 32 0x920BB801 = none ∧ decodeTableWord 32 0xB0000100 = none := by decide

/-- `withFetchWord` puts the word where the next step takes it. -/
theorem test_fetch_word_runs_next :
    ((State.reset.withFetchWord 32 0x10000001).select
        = .run (.openDev true) State.reset) ∧
      (State.reset.withFetchWord 16 3).select = .run (.fill 3#16) State.reset := by
  constructor <;> rfl

/-! ## One step of each instruction -/

/-- 44_engine_control.md R190, its example. -/
theorem test_open :
    (effect (.openDev true) stocked).csr.life = .active ∧
      (effect (.openDev true) stocked).csr.rbCount = 0#32 ∧
      (effect (.openDev true) stocked).csr.ratio = 0x00010000#32 ∧
      (effect (.openDev true) stocked).csr.frameMult = 1#8 := by decide

/-- 44_engine_control.md R191: CLOSE keeps the registers. -/
theorem test_close :
    (effect .close stocked).csr.life = .closed ∧ (effect .close stocked).csr.rbCount = 3#32 := by decide

/-- 95_test_vectors.md section 2.8: 16683 at 60 gives 278, remainder 3; the twentieth gives 279. -/
theorem test_tick :
    (effect .tick opened).responses = [278#32] ∧ (effect .tick opened).csr.remainder = 3#16 ∧
      (effect .tick { opened with
        csr := { opened.csr with effRefresh := 60#16, remainder := 57#16 } }).responses = [279#32] := by
  decide

/-- 95_test_vectors.md section 2.8: saturation, and REFRESH = 0. -/
theorem test_tick_saturates_and_falls_back :
    (effect .tick { opened with
        csr := { opened.csr with frametime := 0xFFFFFFFF#32, refresh := 1#16, frameMult := 2#8 } }).responses
        = [0xFFFFFFFF#32] ∧
      (effect .tick { opened with csr := { opened.csr with refresh := 0#16 } }).csr.events
        = 0x040#12 := by decide

/-- 95_test_vectors.md program P4 step 5, with the oracle SRC_ZOH. -/
theorem test_queue_snapshot :
    (queueSnapshot zoh [100#16, 200#16, 300#16, 400#16]
        { opened with csr := { opened.csr with spc := 4#16, scale := 2#16 } }).csr.ratio = 65601#32 ∧
      (queueSnapshot zoh [100#16, 200#16, 300#16, 400#16]
        { opened with csr := { opened.csr with spc := 4#16, scale := 2#16 } }).phase
        = .enqWait [100#16, 100#16, 100#16, 200#16, 200#16, 300#16, 300#16, 300#16, 400#16, 400#16] 0 := by
  decide

/-- 41_resampler.md R131: five samples where IN_MAX is 4. -/
theorem test_queue_rejected :
    (effect (.queue [1#16, 2#16, 3#16, 4#16, 5#16]) tiny).csr.events = 0x020#12 ∧
      (effect (.queue [1#16, 2#16, 3#16, 4#16, 5#16]) tiny).phase = .idle := by decide

/-- 43_speed_controller.md R180, R181. -/
theorem test_setspeed :
    (effect (.setspeed 4#8) opened).csr.frameMult = 4#8 ∧ (effect (.setspeed 4#8) opened).csr.decim = 4#8 ∧
      (effect (.setspeed 0#8) opened).csr.decim = 1#8 ∧
      (effect (.setspeed 0#8) opened).csr.events = 0x010#12 := by decide

/-- 43_speed_controller.md R184: paused, a FILL of 2 is silence and takes nothing. -/
theorem test_pause :
    (effect (.fill 2#16) (effect .pause stocked)).fillData = [0#16, 0#16] ∧
      (effect (.fill 2#16) (effect .pause stocked)).csr.rbCount = 3#32 := by decide

/-- 43_speed_controller.md R185. -/
theorem test_unpause :
    (effect (.fill 2#16) (effect .unpause (effect .pause stocked))).fillData = [10#16, 20#16] := by decide

/-- 41_resampler.md R152, and 30_encoding.md R92 in CLOSED. -/
theorem test_setmute :
    (effect (.setmute true) opened).csr.muted = true ∧
      (effect (.setmute true) State.reset).csr.muted = false ∧
      (effect (.setmute true) State.reset).csr.events = 0x008#12 := by decide

/-- 95_test_vectors.md section 2.6. -/
theorem test_rehash :
    (effect (.rehash 1#4 44100#20) opened).csr.nativeRate = 44100#20 ∧
      (effect (.rehash 1#4 44100#20) opened).csr.quality = 1#4 ∧
      (effect (.rehash 2#4 0#20) opened).csr.events = 0x004#12 ∧
      (effect (.rehash 2#4 0#20) opened).csr.quality = 0#4 := by decide

/-- 95_test_vectors.md section 2.8: a FRAMETIME that changes clears REMAINDER. -/
theorem test_csrw_frametime :
    (effect (.csrw 0x20#8 16683#32) { opened with
        csr := { opened.csr with frametime := 16639#32, remainder := 3#16 } }).csr.remainder = 0#16 ∧
      (effect (.csrw 0x20#8 16683#32) { opened with
        csr := { opened.csr with remainder := 3#16 } }).csr.remainder = 3#16 := by decide

/-- 10_state.md R25: an illegal value, a read-only register, an unmapped address, and EVENTS. -/
theorem test_csrw_refusals :
    (effect (.csrw 0x10#8 65536#32) opened).csr.spc = 512#16 ∧
      (effect (.csrw 0x10#8 65536#32) opened).csr.events = 0x010#12 ∧
      (effect (.csrw 0x08#8 1#32) opened).csr.events = 0x010#12 ∧
      (effect (.csrw 0x07#8 1#32) opened).csr.events = 0x010#12 ∧
      (effect (.csrw 0x06#8 0x008#32) { opened with
        csr := { opened.csr with events := 0x018#12 } }).csr.events = 0x010#12 := by decide

/-- 44_engine_control.md R192, its example, and an unmapped address. -/
theorem test_csrr :
    (effect (.csrr 0x00#8) State.reset).responses = [0x41415042#32] ∧
      (effect (.csrr 0x05#8) opened).responses = [1#32] ∧
      (effect (.csrr 0x29#8) opened).responses = [0#32] ∧
      (effect (.csrr 0x29#8) opened).csr.events = 0x010#12 := by decide

/-- 95_test_vectors.md program P3, step 6: one sample of four fits; WAIT_TIMEOUT and DROP. -/
theorem test_enqraw_commit :
    (effect (.enqraw [12#16, 13#16, 14#16, 15#16]) nearlyFull).enqueueStep.csr.rbCount = 8#32 ∧
      (effect (.enqraw [12#16, 13#16, 14#16, 15#16]) nearlyFull).enqueueStep.csr.rbEnd = 4#32 ∧
      (effect (.enqraw [12#16, 13#16, 14#16, 15#16]) nearlyFull).enqueueStep.csr.dropCnt = 3#32 ∧
      (effect (.enqraw [12#16, 13#16, 14#16, 15#16]) nearlyFull).enqueueStep.csr.events = 0x402#12 ∧
      (effect (.enqraw [12#16, 13#16, 14#16, 15#16]) nearlyFull).enqueueStep.store.read 3 = 12#16 := by
  decide

/-- 40_ring_buffer.md R118: nine samples where OUT_MAX is 8. -/
theorem test_enqraw_rejected :
    (effect (.enqraw (List.replicate 9 1#16)) tiny).csr.events = 0x020#12 := by decide

/-- 40_ring_buffer.md R112: stored samples across the wrap, then silence, and UNDERRUN. -/
theorem test_fill :
    (effect (.fill 5#16) stocked).fillData = [10#16, 20#16, 30#16, 0#16, 0#16] ∧
      (effect (.fill 5#16) stocked).csr.rbStart = 1#32 ∧
      (effect (.fill 5#16) stocked).csr.events = 0x001#12 ∧
      (effect (.fill 5#16) stocked).csr.underrunCnt = 1#32 := by decide

/-- 41_resampler.md R139 and 95_test_vectors.md section 2.5. -/
theorem test_sat16 :
    sat16 0x3F800000#32 = 32767#16 ∧ sat16 0xBF800000#32 = 0x8000#16 ∧ sat16 0x7FC00000#32 = 0#16 ∧
      sat16 0x37800000#32 = 0#16 ∧ sat16 0x38400000#32 = 2#16 ∧ sat16 0x38A00000#32 = 2#16 ∧
      sat16 0xB8400000#32 = 0xFFFE#16 ∧ sat16 0x3F000000#32 = 16384#16 := by decide

/-- 43_speed_controller.md R183: N = 10, C = 1, m = 3, and N = 5, C = 2, m = 2. -/
theorem test_decimate :
    decimate ((List.range 10).map (BitVec.ofNat 16)) 3 1 = [0#16, 3#16, 6#16] ∧
      decimate ((List.range 5).map (BitVec.ofNat 16)) 2 2 = [0#16, 1#16] := by decide

/-- 30_encoding.md R95, R96: the assembler. -/
theorem test_assemble :
    assembleText "REHASH 2, 48000" = some (.rehash 2#4 48000#20) ∧
      assembleText "CSRW SPC, 0x4" = some (.csrw 0x10#8 4#32) ∧
      assembleText "SETSPEED 256" = none ∧ assembleText "MUTE" = some (.setmute true) := by decide

/-! ## The step -/

/-- 60_exceptions.md R219, R223 (b): nothing to do, and a CSRW without its data word. -/
theorem test_step_stuck :
    step State.reset = .fault .portsEmpty ∧
      step (withCommand State.reset [0xA0000010#32] []) = .fault .awaitingTrailingWords ∧
      step (withCommand opened [0x40000002#32] [1#16]) = .fault .awaitingTrailingWords := by
  refine ⟨rfl, rfl, rfl⟩

/-- 30_encoding.md R97: a refused QUEUE takes its payload. -/
theorem test_refused_word_takes_its_payload :
    step (withCommand opened [0x4FFF0002#32] [1#16, 2#16, 3#16])
      = .next { opened with sampleIn := [3#16], csr := { opened.csr with events := 0x008#12 } } := by rfl

/-! ## Witnesses: states and operands that meet the hypotheses of the obligations -/

/-- The frame of a command of one word. -/
def bare (w : Word) : Frame := { word := w, data := 0#32, payload := [] }

/-- `tiny` with a fill request and a TICK both standing. -/
def contended : State := { withCommand tiny [0x30000000#32] [] with fillReq := [2#16] }

theorem witness_DecodeOfEncode :
    (Instr.enqraw (List.replicate 65535 1#16)).WellFormed ∧
      (encode (.enqraw (List.replicate 65535 1#16))).fills = [] ∧ (Instr.fill 65535#16).WellFormed := by
  refine ⟨?_, rfl, trivial⟩
  simp only [Instr.WellFormed, PayloadFits, List.length_replicate]; omega

theorem witness_EncodeOfDecode :
    takeFrame [0xA0000031#32, 3#32, 7#32] [9#16]
        = some { frame := { word := 0xA0000031#32, data := 3#32, payload := [] }
                 cmdRest := [7#32]
                 sampleRest := [9#16] } ∧
      decode { word := 0xA0000031#32, data := 3#32, payload := [] } = .ok (.csrw 0x31#8 3#32) := by decide

/-- No trailing word, a data word there and missing, a payload there and one sample short, and the longest
payload field with nothing behind it. -/
theorem witness_FramingTakesTheWholeCommand :
    takeFrame [0x30000000#32] []
        = some { frame := bare 0x30000000#32, cmdRest := [], sampleRest := [] } ∧
      (∃ t, takeFrame [0xA0000010#32, 4#32] [] = some t) ∧ takeFrame [0xA0000010#32] [] = none ∧
      (∃ t, takeFrame [0xCFFF0002#32] [1#16, 2#16] = some t) ∧
      takeFrame [0xCFFF0002#32] [1#16] = none ∧ takeFrame [0x4000FFFF#32] [] = none :=
  ⟨by decide, ⟨_, rfl⟩, by decide, ⟨_, rfl⟩, by decide, by decide⟩

theorem witness_StepRunsTheDecodedCommand :
    contended.phase = .idle ∧
      takeFrame contended.cmdIn contended.sampleIn
        = some { frame := bare 0x30000000#32, cmdRest := [], sampleRest := [] } ∧
      decode (bare 0x30000000#32) = .ok .tick ∧
      (withCommand tiny [0x30000000#32] []).fillReq = [] ∧
      ({ contended with sched := [.producer] } : State).sched = .producer :: [] ∧
      contended.fillReq ≠ [] := by decide

theorem witness_StepRunsTheFillRequest :
    contended.fillReq = 2#16 :: [] ∧ contended.producerReady = true ∧
      ({ contended with sched := [.consumer] } : State).sched = .consumer :: [] ∧
      ({ tiny with fillReq := [2#16] } : State).producerReady = false := by decide

/-- Both orders run: after the producer's TICK no command is left, after the FILL no request. -/
theorem witness_EitherAgentMayGoFirst :
    contended.producerReady = true ∧ contended.consumerReady = true ∧ contended.params.Legal ∧
      contended.RingInv ∧
      (∃ t, step { contended with sched := [.producer, .consumer] } = .next t ∧ t.producerReady = false) ∧
      ∃ t, step { contended with sched := [.consumer, .producer] } = .next t ∧ t.consumerReady = false :=
  ⟨by decide, by decide, by decide, by decide, ⟨_, rfl, by decide⟩, ⟨_, rfl, by decide⟩⟩

theorem witness_ConsumerNeverWaits : contended.fillReq = 2#16 :: [] := rfl

/-- A reserved opcode, a reserved bit, and a command that CLOSED does not allow. -/
theorem witness_RefusedWordRaisesBadCmdAlone :
    reservedWord 0xF0000000#32 ∧ reservedWord 0x50000104#32 ∧
      takeFrame (withCommand tiny [0xF0000000#32] []).cmdIn []
        = some { frame := bare 0xF0000000#32, cmdRest := [], sampleRest := [] } ∧
      State.reset.phase = .idle ∧ State.reset.csr.life = .closed ∧
      opcode 0x30000000#32 ∉ [0x1#4, 0x2#4, 0xB#4] := by decide

theorem witness_CloseCommand :
    exec (.csrr 0x0A#8) stocked = .next { stocked with responses := stocked.responses ++ [3#32] } ∧
      (0x0A#8 : BitVec 8) ≠ 0x05#8 ∧ Instr.allowedInClosed .tick = false ∧
      Instr.allowedInClosed .close = true :=
  ⟨rfl, by decide, rfl, rfl⟩

theorem witness_LifecycleLegality :
    State.reset.csr.life = .closed ∧ Instr.allowedInClosed (.queue []) = false ∧
      opened.csr.life ≠ .closed ∧ Instr.allowedInClosed (.csrr 0#8) = true := by decide

theorem witness_NullSinkAndEmptyQueueNoOps :
    (effect (.openDev false) State.reset).csr.life = .nullsink ∧ opened.csr.life ≠ .closed := by decide

theorem witness_ModeChangesOnlyByItsCommands :
    (∃ t, step (withCommand opened [0x20000000#32] []) = .next t ∧ t.csr.life ≠ .active) ∧
      (∃ t, step (withCommand opened [0x60000000#32] []) = .next t ∧ t.csr.paused ≠ false) ∧
      ∃ t, step (withCommand opened [0x80000001#32] []) = .next t ∧ t.csr.muted ≠ false :=
  ⟨⟨_, rfl, by decide⟩, ⟨_, rfl, by decide⟩, ⟨_, rfl, by decide⟩⟩

/-- Unmapped: between two registers, and the last address (10_state.md R24). -/
theorem witness_CsrrReadsTheMap :
    csrAt 0x07#8 = none ∧ csrAt 0x32#8 = none ∧ csrAt 0xFF#8 = none := by decide

/-- A read-write register at the ends of its range and beyond them, a read-only one, an unmapped address. -/
theorem witness_CsrwFourCases :
    opened.csr.life ≠ .closed ∧ RwCsr.legal opened.params .channels 1#32 = true ∧
      RwCsr.legal opened.params .channels 2#32 = true ∧ RwCsr.legal opened.params .channels 0#32 = false ∧
      RwCsr.legal opened.params .channels 3#32 = false ∧ csrAt 0x08#8 = some (.ro .rbStart) ∧
      csrAt 0x0F#8 = none := by decide

theorem witness_CsrwThenCsrrReadsBack :
    opened.csr.life ≠ .closed ∧ opened.params.Legal ∧
      (RwCsr.range opened.params .spc).1 ≤ (65535#32).toNat ∧
      (65535#32).toNat ≤ (RwCsr.range opened.params .spc).2 ∧
      (RwCsr.range opened.params .spc).1 ≤ (1#32).toNat := by decide

theorem witness_EventsAreSticky :
    let s : State := { opened with csr := { opened.csr with events := 0x800#12 } }
    (∃ t, step (withCommand s [0xA0000006#32, 0x800#32] []) = .next t ∧
        s.csr.events.getLsbD 11 = true ∧ t.csr.events.getLsbD 11 = false) ∧
      ∃ t, step (withCommand s [0x10000001#32] []) = .next t ∧
        s.csr.events.getLsbD 11 = true ∧ t.csr.events.getLsbD 11 = false :=
  ⟨⟨_, rfl, by decide, by decide⟩, ⟨_, rfl, by decide, by decide⟩⟩

theorem witness_EventsOfEachInstruction :
    ∃ t, exec (.fill 5#16) stocked = .next t ∧ newEvents stocked t = 0x001#12 := ⟨_, rfl, by decide⟩

theorem witness_ResponsesInCommandOrder :
    (∃ t, exec .tick opened = .next t) ∧ ∃ t, exec .close opened = .next t := ⟨⟨_, rfl⟩, ⟨_, rfl⟩⟩

/-- ACTIVE, paused, and a FILL of 0 samples. -/
theorem witness_FillCommand :
    stocked.params.Legal ∧ stocked.csr.life = .active ∧ stocked.csr.paused = false ∧
      (effect .pause stocked).csr.paused = true ∧ (effect (.fill 0#16) stocked).csr = stocked.csr := by decide

theorem witness_UnderrunOnset :
    let s : State := { stocked with fillReq := [2#16, 2#16, 9#16] }
    0 < (2#16).toNat ∧ s.params.Legal ∧ s.RingInv ∧ s.producerSilent ∧ s.csr.life = .active ∧
      s.csr.paused = false ∧
      s.fillReq = List.replicate (s.csr.rbCount.toNat / (2#16).toNat + 1) 2#16 ++ [9#16] := by decide

theorem witness_EnqueueWaitStep : waiting.phase = .enqWait [1#16, 2#16] 0 := rfl

theorem witness_EnqueueCommit :
    stocked.params.Legal ∧ stocked.RingInv ∧ stocked.store.wf ∧ waiting.params.Legal ∧ waiting.RingInv ∧
      waiting.store.wf := by decide

theorem witness_EnqrawCommand :
    opened.csr.life ≠ .closed ∧ State.reset.csr.life = .closed ∧
      (effect (.openDev false) State.reset).csr.life = .nullsink := by decide

/-- A wait with polls left, one whose polls are used up, and one with no poll allowed. -/
theorem witness_EnqueueWaitEnds :
    ({ waiting with fillReq := [1#16] } : State).phase = .enqWait [1#16, 2#16] 0 ∧
      ({ waiting with phase := .enqWait [1#16, 2#16] 1000 } : State).phase = .enqWait [1#16, 2#16] 1000 ∧
      (nearlyFull.csr.waitMax.toNat - 0 + 1 = 1 ∧
        producerSteps 1 { nearlyFull with phase := .enqWait [1#16, 2#16] 0 } = 1) := by decide

/-- A FILL, an OPEN and a commit each move the ring's registers. -/
theorem witness_RingIndexInvariant :
    stocked.params.Legal ∧ stocked.RingInv ∧
      (∃ t, step { stocked with fillReq := [2#16] } = .next t ∧ t.csr.rbStart ≠ stocked.csr.rbStart) ∧
      (∃ t, step (withCommand stocked [0x10000001#32] []) = .next t ∧
        t.csr.rbCount ≠ stocked.csr.rbCount) ∧
      ∃ t, step { stocked with phase := .enqWait [1#16] 0 } = .next t ∧ t.csr.rbEnd ≠ stocked.csr.rbEnd :=
  ⟨by decide, by decide, ⟨_, rfl, by decide⟩, ⟨_, rfl, by decide⟩, ⟨_, rfl, by decide⟩⟩

/-- A FILL that delivers, one that a PAUSE turns away, an OPEN, a refused word, a poll and a TICK. -/
theorem witness_RingBufferIsAFifo :
    stocked.params.Legal ∧ stocked.RingInv ∧ stocked.store.wf ∧ stocked.csr.life = .active ∧
      stocked.csr.paused = false ∧ stocked.contents = [10#16, 20#16, 30#16] ∧
      (effect .pause stocked).csr.paused = true ∧ (effect (.openDev true) stocked).contents = [] ∧
      (∃ u t, (withCommand stocked [0xF0000000#32] []).select = .refuse u ∧
        step (withCommand stocked [0xF0000000#32] []) = .next t) ∧
      waiting.enqueueStep.phase ≠ .idle ∧ (∀ k, Instr.tick ≠ .fill k) ∧ ∀ f, Instr.tick ≠ .openDev f := by
  refine ⟨by decide, by decide, by decide, by decide, by decide, by decide, by decide, by decide,
    ⟨_, _, rfl, rfl⟩, by decide, ?_, ?_⟩ <;> intro _ h <;> cases h

theorem witness_SampleConservation :
    let s : State := { stocked with fillReq := [2#16] }
    s.params.Legal ∧ s.RingInv ∧ s.Conserved ∧ (∃ t, step s = .next t) ∧
      ∀ v u, s.select ≠ .run (.csrw 0x0D#8 v) u ∧ s.select ≠ .run (.csrw 0x0E#8 v) u := by
  refine ⟨by decide, by decide, by decide, ⟨_, rfl⟩, ?_⟩
  intro v u
  refine ⟨?_, ?_⟩ <;> intro h <;> cases h

/-- A store that differs at index 3, outside the occupied window 6, 7, 0. -/
theorem witness_UnoccupiedStoreIsUnobservable :
    let m : Store := { cells := [(0, 30#16), (3, 99#16), (6, 10#16), (7, 20#16)] }
    stocked.params.Legal ∧ stocked.RingInv ∧ stocked.store.wf ∧ m.wf ∧ m ≠ stocked.store ∧
      ({ stocked with store := m } : State).contents = stocked.contents ∧
      ∃ t, step { stocked with fillReq := [2#16] } = .next t :=
  ⟨by decide, by decide, by decide, by decide, by decide, by decide, ⟨_, rfl⟩⟩

theorem witness_QueueCommand :
    tiny.csr.life = .active ∧ tiny.params.Legal ∧ tiny.ConfigInv ∧ [7#16] ≠ ([] : List Sample) ∧
      [1#16, 2#16, 3#16, 4#16].length ≤ tiny.params.inMax := by decide

theorem witness_QueueRejection :
    tiny.csr.life = .active ∧ tiny.params.inMax < [1#16, 2#16, 3#16, 4#16, 5#16].length ∧
      tiny.phase = .idle ∧
      (∃ t, takeFrame [0x40000005#32] [1#16, 2#16, 3#16, 4#16, 5#16] = some t ∧
        decode t.frame = .ok (.queue [1#16, 2#16, 3#16, 4#16, 5#16])) :=
  ⟨by decide, by decide, by decide, ⟨_, rfl, by decide⟩⟩

/-- Occupancy below the target, and at it. -/
theorem witness_BoundedCorrection :
    tiny.csr.life = .active ∧ tiny.ConfigInv ∧ [7#16].length ≤ tiny.params.inMax ∧
      ¬ tiny.csr.targetLow.toNat ≤ tiny.csr.rbCount.toNat / tiny.csr.spc.toNat ∧
      ({ stocked with csr := { stocked.csr with spc := 1#16 } } : State).csr.targetLow.toNat
        ≤ stocked.csr.rbCount.toNat / (1#16).toNat := by decide

/-- Two states that differ in RATIO, LAST_IN and the store. -/
theorem witness_ProportionalOnlyControl :
    let u : State :=
      { stocked with
        store := { cells := [] }
        csr := { stocked.csr with ratio := 65601#32, lastIn := 4#16 } }
    stocked.csr.life = .active ∧ u.csr.life = .active ∧ stocked.ConfigInv ∧ [7#16].length ≤ stocked.params.inMax ∧
      stocked.params.Legal ∧ u.params = stocked.params ∧ u.csr.rbCount = stocked.csr.rbCount ∧
      u.csr.spc = stocked.csr.spc ∧ u.csr.targetLow = stocked.csr.targetLow ∧
      u.csr.nativeRate = stocked.csr.nativeRate ∧ u.csr.hostTickMs = stocked.csr.hostTickMs ∧
      u.csr.corrMax = stocked.csr.corrMax ∧ u.csr.scale = stocked.csr.scale ∧
      u.csr.decim = stocked.csr.decim ∧ u.csr.channels = stocked.csr.channels ∧
      u.csr.ratio ≠ stocked.csr.ratio := by decide

theorem witness_MuteOnlyZeroesTheBlock :
    tiny.csr.life = .active ∧ tiny.csr.muted = false ∧ tiny.ConfigInv ∧ tiny.phase = .idle ∧
      [7#16] ≠ ([] : List Sample) ∧ [7#16].length ≤ tiny.params.inMax := by decide

/-- A NaN, the largest finite number, the smallest subnormal and -0. -/
theorem witness_SaturatingConversion :
    exponentBits 0x7FC00000#32 = 255 ∧ fractionBits 0x7FC00000#32 ≠ 0 ∧ finite32 0x7F7FFFFF#32 ∧
      finite32 0x00000001#32 ∧ finite32 0x80000000#32 := by decide

/-- A zero RATE, and a RATIO of 0, which no run reaches (41_resampler.md R150). -/
theorem witness_RehashCommand :
    opened.csr.life ≠ .closed ∧ (0#20 : BitVec 20) = 0#20 ∧ (48000#20 : BitVec 20) ≠ 0#20 ∧
      opened.csr.ratio ≠ 0#32 ∧
      ({ opened with csr := { opened.csr with ratio := 0#32 } } : State).csr.ratio = 0#32 := by decide

theorem witness_SetmuteCommand : opened.csr.life ≠ .closed := by decide

/-- The refresh unchanged since the last TICK with the largest remainder, changed, and implausible. -/
theorem witness_TickCommand :
    let s : State :=
      { opened with csr := { opened.csr with effRefresh := 60#16, remainder := 59#16 } }
    s.csr.life ≠ .closed ∧ s.ConfigInv ∧ s.PacerInv ∧ s.csr.effectiveRefresh = s.csr.effRefresh ∧
      opened.PacerInv ∧ opened.csr.effectiveRefresh ≠ opened.csr.effRefresh ∧
      ({ s with csr := { s.csr with refresh := 0#16 } } : State).csr.refreshImplausible = true := by decide

theorem witness_BoundedErrorPacing :
    let s : State :=
      { withCommand opened [0x30000000#32, 0x30000000#32, 0x20000000#32] [] with
        csr := { opened.csr with effRefresh := 60#16 } }
    s.csr.life ≠ .closed ∧ s.phase = .idle ∧ s.fillReq = [] ∧
      s.cmdIn = List.replicate 2 0x30000000#32 ++ [0x20000000#32] ∧
      s.csr.effectiveRefresh = s.csr.effRefresh ∧ s.csr.remainder < s.csr.effRefresh ∧
      s.csr.paused = false ∧ s.csr.frameMult = 1#8 ∧ s.csr.remainder.toNat = 0 := by decide

theorem witness_DriftTest :
    let s : State := withCommand opened (List.replicate 10000 0x30000000#32) []
    s.csr.life ≠ .closed ∧ s.phase = .idle ∧ s.fillReq = [] ∧
      s.cmdIn = List.replicate 10000 0x30000000#32 ∧ s.csr.frametime = 16683#32 ∧
      s.csr.effectiveRefresh = 60#16 ∧ s.csr.remainder = 0#16 ∧ s.csr.frameMult = 1#8 ∧
      s.csr.paused = false :=
  ⟨by decide, rfl, rfl, rfl, rfl, by decide, rfl, rfl, rfl⟩

theorem witness_RemainderInvariant :
    opened.csr.life ≠ .closed ∧ opened.ConfigInv ∧ opened.PacerInv ∧
      (∃ t, exec .tick opened = .next t) ∧
      ∃ t, step (withCommand opened [0x30000000#32] []) = .next t ∧
        t.csr.remainder ≠ opened.csr.remainder :=
  ⟨by decide, by decide, by decide, ⟨_, rfl⟩, ⟨_, rfl, by decide⟩⟩

theorem witness_SetspeedCommand :
    opened.csr.life ≠ .closed ∧ (255#8 : BitVec 8) ≠ 0#8 ∧ (0#8 : BitVec 8) = 0#8 := by decide

theorem witness_PauseCommand : stocked.csr.life ≠ .closed := by decide

theorem witness_UnpauseCommand :
    (effect .pause stocked).csr.life = .active ∧ (effect .pause stocked).params.Legal ∧
      (effect .pause stocked).RingInv := by decide

/-- The last kept frame and channel of N = 5, m = 2, C = 2, and the identity. -/
theorem witness_DecimationKeepsEveryMth :
    1 ≤ 2 ∧ 2 ≠ 1 ∧ 0 < (2 * (5 / 2) + 2) / (2 * 2) ∧ 1 < 2 ∧ (2 * (5 / 2) + 2) / (2 * 2) = 1 := by decide

theorem witness_LockstepSpeed :
    let s : State := { opened with csr := { opened.csr with frameMult := 4#8, decim := 4#8 } }
    1 ≤ 4 ∧ s.csr.frameMult.toNat = 4 ∧ s.csr.decim.toNat = 4 ∧ s.csr.channels = 1#4 ∧
      s.csr.paused = false ∧ 278 * 4 ≤ 2 ^ 32 - 1 := by decide

theorem witness_SpeedParametersAreIndependent :
    opened.csr.life ≠ .closed ∧ (∃ t, exec (.queue [7#16]) opened = .next t) ∧
      (∃ t, exec .tick opened = .next t) ∧ 1 ≤ (255#32).toNat ∧ (255#32).toNat ≤ 255 ∧
      1 ≤ (1#32).toNat :=
  ⟨by decide, ⟨_, rfl⟩, ⟨_, rfl⟩, by decide, by decide, by decide⟩

/-- States with every invariant: one that runs a TICK, and one that waits. -/
theorem witness_StepKeepsTheInvariant :
    contended.Inv ∧ stocked.Inv ∧ waiting.Inv ∧
      (∃ t, step (withCommand tiny [0x30000000#32] []) = .next t) ∧ ∃ t, step waiting = .next t :=
  ⟨by decide, by decide, by decide, ⟨_, rfl⟩, ⟨_, rfl⟩⟩

theorem witness_ParametersAreFixed : ∃ t, step waiting = .next t := ⟨_, rfl⟩

theorem witness_HostMovesKeepTheInvariant :
    stocked.Inv ∧ ∃ v t, ({ stocked with responses := [5#32] } : State).takeResponse = some (v, t) :=
  ⟨by decide, ⟨_, _, rfl⟩⟩

theorem witness_BusCarriesWholeUnits :
    3 < 4 ∧ 1 < 2 ∧ wordBytes 0x12345678#32 = [0x78#8, 0x56#8, 0x34#8, 0x12#8] := by decide

/-- A payload at both ends of s16, one sample beyond each end, a count that is not the payload's length, and the
greatest operand of each width with the least that is refused. -/
theorem witness_AssemblerOperandsAndPseudoInstructions :
    assemble (.queue 2 [-32768, 32767]) = some (.queue [0x8000#16, 0x7FFF#16]) ∧
      assemble (.enqraw 1 [32768]) = none ∧ assemble (.enqraw 1 [-32769]) = none ∧
      assemble (.enqraw 2 [0]) = none ∧ assemble (.openDev 1) = some (.openDev true) ∧
      assemble (.setmute 2) = none ∧ assemble (.csrr 255) = some (.csrr 255#8) ∧
      assemble (.csrr 256) = none ∧ assemble (.rehash 15 1048576) = none := by decide

end Sys2Proof.Tests
end

