-- ==== Sys2Proof/Proofs/Params.lean ====
section
/-! PROOFS. The synthesis parameters are read-only (00_scope.md R6): the frame lemma `_params` of each operation,
of each instruction's effect, and of the step. -/

namespace Sys2Proof.Machine

/-! ## The shared operations leave the parameters -/

@[simp] theorem State.refuseCommand_params (s : State) : s.refuseCommand.params = s.params := rfl

/-- The lifecycle check leaves what the guarded effect leaves. -/
theorem State.unlessClosed_params {s t : State} (h : t.params = s.params) :
    (s.unlessClosed t).params = s.params := by
  by_cases hc : s.csr.life = .closed
  · rw [State.unlessClosed_of_closed s t hc, State.raise_params]
  · rw [State.unlessClosed_of_open s t hc, h]

@[simp] theorem State.dequeue_params (s : State) (k : Nat) : (s.dequeue k).params = s.params := by
  rw [State.dequeue_eq]

@[simp] theorem State.commit_params (s : State) (block : List Sample) :
    (s.commit block).params = s.params := by
  rw [State.commit_eq]

@[simp] theorem State.enqueueStep_params (s : State) : s.enqueueStep.params = s.params := by
  obtain ⟨_, hidle⟩ | ⟨block, polls, _, ⟨_, hcommit⟩ | ⟨_, _, hpoll⟩ | ⟨_, _, htimeout⟩⟩ :=
    s.enqueueStep_cases
  · rw [hidle]
  · rw [hcommit, State.commit_params]
  · rw [hpoll]
  · rw [htimeout, State.commit_params, State.raise_params]

@[simp] theorem State.readCsr_params (s : State) (a : BitVec 8) : (s.readCsr a).params = s.params := by
  unfold State.readCsr
  cases csrAt a <;> simp

@[simp] theorem State.writeCsr_params (s : State) (a : BitVec 8) (v : Word) :
    (s.writeCsr a v).params = s.params := by
  unfold State.writeCsr
  rcases csrAt a with _ | _ | r | _
  case some.rw => by_cases hl : r.legal s.params v <;> simp [hl]
  all_goals rfl

/-! ## The commands leave the parameters -/

@[simp] theorem tickCommand_params (s : State) : (tickCommand s).params = s.params := by
  simp [tickCommand]

@[simp] theorem queueSnapshot_params (conv : Converter) (x : List Sample) (s : State) :
    (queueSnapshot conv x s).params = s.params := by
  obtain ⟨_, _, _, _, _, _, _, _, heq⟩ := queueSnapshot_eq conv x s
  rw [heq]

@[simp] theorem queueCommand_params (conv : Converter) (x : List Sample) (s : State) :
    (queueCommand conv x s).params = s.params := by
  unfold queueCommand
  split_ifs <;> simp

@[simp] theorem enqrawCommand_params (x : List Sample) (s : State) :
    (enqrawCommand x s).params = s.params := by
  unfold enqrawCommand
  split_ifs <;> simp

@[simp] theorem rehashCommand_params (q : BitVec 4) (rate : BitVec 20) (s : State) :
    (rehashCommand q rate s).params = s.params := by
  unfold rehashCommand
  split_ifs <;> simp

@[simp] theorem setspeedCommand_params (m : BitVec 8) (s : State) :
    (setspeedCommand m s).params = s.params := by
  unfold setspeedCommand
  split_ifs <;> simp

@[simp] theorem fillRequest_params (k : Nat) (s : State) : (fillRequest k s).params = s.params := by
  unfold fillRequest
  split_ifs <;> simp

/-- No instruction writes the parameters, in any lifecycle state (00_scope.md R6). -/
@[simp] theorem effect_params (i : Instr) (s : State) : (effect i s).params = s.params := by
  cases i with
  | openDev f => rw [effect_openDev]
  | close => rw [effect_close]
  | tick => exact State.unlessClosed_params (tickCommand_params s)
  | queue x => exact State.unlessClosed_params (queueCommand_params Config.src x s)
  | setspeed m => exact State.unlessClosed_params (setspeedCommand_params m s)
  | pause => exact State.unlessClosed_params rfl
  | unpause => exact State.unlessClosed_params rfl
  | setmute f => exact State.unlessClosed_params rfl
  | rehash q rate => exact State.unlessClosed_params (rehashCommand_params q rate s)
  | csrw a v => exact State.unlessClosed_params (s.writeCsr_params a v)
  | csrr a => exact s.readCsr_params a
  | enqraw x => exact State.unlessClosed_params (enqrawCommand_params x s)
  | fill k => exact fillRequest_params k.toNat s

/-! ## The step leaves the parameters -/

/-- A step of either agent leaves the parameters: a wait step, an instruction or a refused word, on a state
whose parameters taking words off the ports has left alone. -/
theorem step_params {s t : State} (h : step s = .next t) : t.params = s.params := by
  obtain ⟨u, _, hu, _, rfl⟩ | ⟨i, u, _, hu, _, rfl⟩ | ⟨u, _, hu, _, rfl⟩ := step_cases h
  · rw [State.enqueueStep_params, hu.params]
  · rw [effect_params, hu.params]
  · rw [State.refuseCommand_params, hu.params]

/-- Settles O56, by the three kinds of step. -/
theorem parametersAreFixed : Obligations.ParametersAreFixed := by
  unfold Obligations.ParametersAreFixed
  intro s t h
  exact step_params h

end Sys2Proof.Machine
end

section
/-! PROOFS. What the operations leave alone: the ring buffer (10_state.md R29), MODE (R27) and the set bits of
EVENTS (R28). One frame lemma for each operation, then the instructions' effects. -/

namespace Sys2Proof.Machine

/-! ## Case lemmas of the shared operations -/

/-- What holds of the refused word and of the command's own effect holds behind the lifecycle check. -/
theorem State.unlessClosed_of {P : State → Prop} {s t : State} (hrefused : P (s.raise .badCmd)) (h : P t) :
    P (s.unlessClosed t) := by
  by_cases hc : s.csr.life = .closed
  · rwa [State.unlessClosed_of_closed s t hc]
  · rwa [State.unlessClosed_of_open s t hc]

/-- The register that the map gives for an address has that address. -/
theorem csrAt_addr {a : BitVec 8} {c : Csr} (h : csrAt a = some c) : c.addr = a := by
  simpa using List.find?_some h

/-- What a CSRW can do, once (10_state.md R25). -/
theorem State.writeCsr_cases (s : State) (a : BitVec 8) (v : Word) :
    s.writeCsr a v = s.raise .badArg ∨
      a = 0x06#8 ∧
        s.writeCsr a v = { s with csr := { s.csr with events := clearEvents s.csr.events v } } ∨
      ∃ r : RwCsr, s.writeCsr a v = { s with csr := r.set v s.csr } := by
  unfold State.writeCsr
  cases hc : csrAt a with
  | none => exact .inl rfl
  | some c =>
    cases c with
    | ro r => exact .inl rfl
    | events => exact .inr (.inl ⟨(csrAt_addr hc).symm, rfl⟩)
    | rw r =>
      by_cases hl : r.legal s.params v = true
      · exact .inr (.inr ⟨r, if_pos hl⟩)
      · exact .inl (if_neg hl)

/-- What a CSRR can do, once (10_state.md R26). -/
theorem State.readCsr_cases (s : State) (a : BitVec 8) :
    (∃ v, s.readCsr a = s.respond v) ∨ s.readCsr a = (s.raise .badArg).respond 0#32 := by
  unfold State.readCsr
  cases csrAt a with
  | none => exact .inr rfl
  | some c => exact .inl ⟨_, rfl⟩

/-! ## A CSRW writes one read-write register, and REMAINDER with FRAMETIME -/

@[simp] theorem RwCsr.set_life (r : RwCsr) (v : Word) (c : Csrs) : (r.set v c).life = c.life := by
  cases r <;> rfl

@[simp] theorem RwCsr.set_paused (r : RwCsr) (v : Word) (c : Csrs) : (r.set v c).paused = c.paused := by
  cases r <;> rfl

@[simp] theorem RwCsr.set_muted (r : RwCsr) (v : Word) (c : Csrs) : (r.set v c).muted = c.muted := by
  cases r <;> rfl

@[simp] theorem RwCsr.set_events (r : RwCsr) (v : Word) (c : Csrs) : (r.set v c).events = c.events := by
  cases r <;> rfl

@[simp] theorem RwCsr.set_rbStart (r : RwCsr) (v : Word) (c : Csrs) : (r.set v c).rbStart = c.rbStart := by
  cases r <;> rfl

@[simp] theorem RwCsr.set_rbEnd (r : RwCsr) (v : Word) (c : Csrs) : (r.set v c).rbEnd = c.rbEnd := by
  cases r <;> rfl

@[simp] theorem RwCsr.set_rbCount (r : RwCsr) (v : Word) (c : Csrs) : (r.set v c).rbCount = c.rbCount := by
  cases r <;> rfl

/-! ## The frames -/

/-- All that the ring buffer's invariant and contents depend on is the same. -/
structure SameRing (s t : State) : Prop where
  params : t.params = s.params
  store : t.store = s.store
  rbStart : t.csr.rbStart = s.csr.rbStart
  rbEnd : t.csr.rbEnd = s.csr.rbEnd
  rbCount : t.csr.rbCount = s.csr.rbCount

/-- The three fields of MODE are the same (10_state.md R27). -/
structure SameMode (s t : State) : Prop where
  life : t.csr.life = s.csr.life
  paused : t.csr.paused = s.csr.paused
  muted : t.csr.muted = s.csr.muted

/-- Every bit of EVENTS that is set in `s` is set in `t` (10_state.md R28). -/
def EventsKept (s t : State) : Prop :=
  ∀ n, s.csr.events.getLsbD n = true → t.csr.events.getLsbD n = true

/-- The frame of a FILL and of a wait step, which move the ring buffer. -/
structure AgentFrame (s t : State) : Prop where
  mode : SameMode s t
  events : EventsKept s t

/-- The frame of the commands that write neither MODE nor the ring buffer and clear no event. -/
structure CommandFrame (s t : State) : Prop extends AgentFrame s t where
  ring : SameRing s t

theorem CommandFrame.refl (s : State) : CommandFrame s s where
  mode := ⟨rfl, rfl, rfl⟩
  events _ h := h
  ring := ⟨rfl, rfl, rfl, rfl, rfl⟩

theorem CommandFrame.raise (s : State) (e : Event) : CommandFrame s (s.raise e) where
  mode := ⟨rfl, rfl, rfl⟩
  events n h := by simp [h]
  ring := ⟨rfl, rfl, rfl, rfl, rfl⟩

theorem AgentFrame.trans {s t u : State} (h : AgentFrame s t) (h' : AgentFrame t u) : AgentFrame s u where
  mode := ⟨h'.mode.life.trans h.mode.life, h'.mode.paused.trans h.mode.paused,
    h'.mode.muted.trans h.mode.muted⟩
  events n hn := h'.events n (h.events n hn)

theorem SameRing.trans {s t u : State} (h : SameRing s t) (h' : SameRing t u) : SameRing s u :=
  ⟨h'.params.trans h.params, h'.store.trans h.store, h'.rbStart.trans h.rbStart, h'.rbEnd.trans h.rbEnd,
    h'.rbCount.trans h.rbCount⟩

/-- Taking words off the ports is no operation of the machine. -/
theorem SameMachine.frame {s u : State} (h : SameMachine s u) : CommandFrame s u where
  mode := by constructor <;> rw [h.csr]
  events n hn := by rwa [h.csr]
  ring := ⟨h.params, h.store, by rw [h.csr], by rw [h.csr], by rw [h.csr]⟩

/-! ## The frame of each operation -/

theorem State.dequeue_frame (s : State) (k : Nat) : AgentFrame s (s.dequeue k) := by
  rw [State.dequeue_eq]
  exact { mode := ⟨rfl, rfl, rfl⟩, events := fun n h => by simp [h] }

theorem State.commit_frame (s : State) (block : List Sample) : AgentFrame s (s.commit block) := by
  rw [State.commit_eq]
  exact { mode := ⟨rfl, rfl, rfl⟩, events := fun n h => by simp [h] }

theorem State.enqueueStep_frame (s : State) : AgentFrame s s.enqueueStep := by
  obtain ⟨_, hidle⟩ | ⟨block, polls, _, ⟨_, hcommit⟩ | ⟨_, _, hpoll⟩ | ⟨_, _, htimeout⟩⟩ :=
    s.enqueueStep_cases
  · rw [hidle]; exact (CommandFrame.refl s).toAgentFrame
  · rw [hcommit]; exact s.commit_frame block
  · rw [hpoll]; exact { mode := ⟨rfl, rfl, rfl⟩, events := fun _ h => h }
  · rw [htimeout]
    exact (CommandFrame.raise s .waitTimeout).toAgentFrame.trans (State.commit_frame _ block)

theorem fillRequest_frame (k : Nat) (s : State) : AgentFrame s (fillRequest k s) := by
  unfold fillRequest
  split_ifs
  · exact { mode := ⟨rfl, rfl, rfl⟩, events := fun _ h => h }
  · exact s.dequeue_frame k

theorem tickCommand_frame (s : State) : CommandFrame s (tickCommand s) where
  mode := by constructor <;> simp [tickCommand]
  events n h := by simp [tickCommand, h]
  ring := by constructor <;> simp [tickCommand]

theorem queueSnapshot_frame (conv : Converter) (x : List Sample) (s : State) :
    CommandFrame s (queueSnapshot conv x s) := by
  obtain ⟨_, _, _, _, _, _, _, _, heq⟩ := queueSnapshot_eq conv x s
  rw [heq]
  exact
    { mode := ⟨rfl, rfl, rfl⟩
      events := fun n h => by simp [h]
      ring := ⟨rfl, rfl, rfl, rfl, rfl⟩ }

theorem queueCommand_frame (conv : Converter) (x : List Sample) (s : State) :
    CommandFrame s (queueCommand conv x s) := by
  unfold queueCommand
  split_ifs
  · exact .refl s
  · exact .raise s _
  · exact .refl s
  · exact queueSnapshot_frame conv x s

theorem enqrawCommand_frame (x : List Sample) (s : State) : CommandFrame s (enqrawCommand x s) := by
  unfold enqrawCommand
  split_ifs
  · exact .refl s
  · exact .raise s _
  · exact .refl s
  · exact { mode := ⟨rfl, rfl, rfl⟩, events := fun _ h => h, ring := ⟨rfl, rfl, rfl, rfl, rfl⟩ }

theorem rehashCommand_frame (q : BitVec 4) (rate : BitVec 20) (s : State) :
    CommandFrame s (rehashCommand q rate s) := by
  unfold rehashCommand
  split_ifs
  · exact .raise s _
  · exact { mode := ⟨rfl, rfl, rfl⟩, events := fun _ h => h, ring := ⟨rfl, rfl, rfl, rfl, rfl⟩ }

theorem setspeedCommand_frame (m : BitVec 8) (s : State) : CommandFrame s (setspeedCommand m s) := by
  unfold setspeedCommand
  split_ifs
  · exact .raise s _
  · exact { mode := ⟨rfl, rfl, rfl⟩, events := fun _ h => h, ring := ⟨rfl, rfl, rfl, rfl, rfl⟩ }

theorem State.readCsr_frame (s : State) (a : BitVec 8) : CommandFrame s (s.readCsr a) := by
  obtain ⟨v, h⟩ | h := s.readCsr_cases a
  · rw [h]
    exact { mode := ⟨rfl, rfl, rfl⟩, events := fun _ h => h, ring := ⟨rfl, rfl, rfl, rfl, rfl⟩ }
  · rw [h]
    exact
      { mode := ⟨rfl, rfl, rfl⟩
        events := fun n h => by simp [h]
        ring := ⟨rfl, rfl, rfl, rfl, rfl⟩ }

theorem State.writeCsr_sameRing (s : State) (a : BitVec 8) (v : Word) : SameRing s (s.writeCsr a v) := by
  obtain h | ⟨_, h⟩ | ⟨r, h⟩ := s.writeCsr_cases a v
  · rw [h]; exact (CommandFrame.raise s _).ring
  · rw [h]; exact ⟨rfl, rfl, rfl, rfl, rfl⟩
  · rw [h]; constructor <;> simp

theorem State.writeCsr_sameMode (s : State) (a : BitVec 8) (v : Word) : SameMode s (s.writeCsr a v) := by
  obtain h | ⟨_, h⟩ | ⟨r, h⟩ := s.writeCsr_cases a v
  · rw [h]; exact (CommandFrame.raise s _).mode
  · rw [h]; exact ⟨rfl, rfl, rfl⟩
  · rw [h]; constructor <;> simp

/-- A CSRW clears an event only by a 1 written to its bit of EVENTS (10_state.md R25 (2)). -/
theorem State.writeCsr_clears {s : State} {a : BitVec 8} {v : Word} {n : Nat}
    (hset : s.csr.events.getLsbD n = true) (hclear : (s.writeCsr a v).csr.events.getLsbD n = false) :
    a = 0x06#8 ∧ v.getLsbD n = true := by
  have hn : n < 12 := BitVec.lt_of_getLsbD hset
  obtain h | ⟨ha, h⟩ | ⟨r, h⟩ := s.writeCsr_cases a v
  · simp [h, hset] at hclear
  · rw [h] at hclear
    exact ⟨ha, by simpa [clearEvents, hset, hn] using hclear⟩
  · simp [h, hset] at hclear

/-- The frame passes through the lifecycle check. -/
theorem CommandFrame.unlessClosed {s t : State} (h : CommandFrame s t) : CommandFrame s (s.unlessClosed t) :=
  State.unlessClosed_of (.raise s .badCmd) h

/-! ## The frame of the instructions -/

/-- Only FILL and OPEN touch the ring buffer among the instructions (10_state.md R29). -/
theorem effect_sameRing (i : Instr) (s : State) :
    SameRing s (effect i s) ∨ (∃ k, i = .fill k) ∨ ∃ f, i = .openDev f := by
  have refused : SameRing s (s.raise .badCmd) := (CommandFrame.raise s _).ring
  cases i with
  | openDev f => exact .inr (.inr ⟨f, rfl⟩)
  | fill k => exact .inr (.inl ⟨k, rfl⟩)
  | close => exact .inl ⟨rfl, rfl, rfl, rfl, rfl⟩
  | tick => exact .inl (tickCommand_frame s).unlessClosed.ring
  | queue x => exact .inl (queueCommand_frame _ x s).unlessClosed.ring
  | setspeed m => exact .inl (setspeedCommand_frame m s).unlessClosed.ring
  | pause => exact .inl (State.unlessClosed_of refused ⟨rfl, rfl, rfl, rfl, rfl⟩)
  | unpause => exact .inl (State.unlessClosed_of refused ⟨rfl, rfl, rfl, rfl, rfl⟩)
  | setmute f => exact .inl (State.unlessClosed_of refused ⟨rfl, rfl, rfl, rfl, rfl⟩)
  | rehash q rate => exact .inl (rehashCommand_frame q rate s).unlessClosed.ring
  | csrw a v => exact .inl (State.unlessClosed_of refused (s.writeCsr_sameRing a v))
  | csrr a => exact .inl (s.readCsr_frame a).ring
  | enqraw x => exact .inl (enqrawCommand_frame x s).unlessClosed.ring

/-- An instruction other than the five that write MODE leaves it, and each of these writes its own field of it,
OPEN all three (10_state.md R27). -/
theorem effect_mode_cases (i : Instr) (s : State) :
    SameMode s (effect i s) ∨ (∃ f, i = .openDev f) ∨
      i = .close ∧ (effect i s).csr.paused = s.csr.paused ∧ (effect i s).csr.muted = s.csr.muted ∨
      (i = .pause ∨ i = .unpause) ∧
        (effect i s).csr.life = s.csr.life ∧ (effect i s).csr.muted = s.csr.muted ∨
      (∃ f, i = .setmute f) ∧
        (effect i s).csr.life = s.csr.life ∧ (effect i s).csr.paused = s.csr.paused := by
  have refused : SameMode s (s.raise .badCmd) := (CommandFrame.raise s _).mode
  cases i with
  | openDev f => exact .inr (.inl ⟨f, rfl⟩)
  | close => exact .inr (.inr (.inl ⟨rfl, rfl, rfl⟩))
  | pause =>
    refine .inr (.inr (.inr (.inl ⟨.inl rfl, ?_⟩)))
    exact State.unlessClosed_of (P := fun t => t.csr.life = s.csr.life ∧ t.csr.muted = s.csr.muted)
      ⟨rfl, rfl⟩ ⟨rfl, rfl⟩
  | unpause =>
    refine .inr (.inr (.inr (.inl ⟨.inr rfl, ?_⟩)))
    exact State.unlessClosed_of (P := fun t => t.csr.life = s.csr.life ∧ t.csr.muted = s.csr.muted)
      ⟨rfl, rfl⟩ ⟨rfl, rfl⟩
  | setmute f =>
    refine .inr (.inr (.inr (.inr ⟨⟨f, rfl⟩, ?_⟩)))
    exact State.unlessClosed_of (P := fun t => t.csr.life = s.csr.life ∧ t.csr.paused = s.csr.paused)
      ⟨rfl, rfl⟩ ⟨rfl, rfl⟩
  | tick => exact .inl (tickCommand_frame s).unlessClosed.mode
  | queue x => exact .inl (queueCommand_frame _ x s).unlessClosed.mode
  | setspeed m => exact .inl (setspeedCommand_frame m s).unlessClosed.mode
  | rehash q rate => exact .inl (rehashCommand_frame q rate s).unlessClosed.mode
  | csrw a v => exact .inl (State.unlessClosed_of refused (s.writeCsr_sameMode a v))
  | csrr a => exact .inl (s.readCsr_frame a).mode
  | enqraw x => exact .inl (enqrawCommand_frame x s).unlessClosed.mode
  | fill k => exact .inl (fillRequest_frame k.toNat s).mode

/-- Only OPEN, and a CSRW of EVENTS at the bits written 1, clear an event (10_state.md R28). -/
theorem effect_events_cases (i : Instr) (s : State) :
    EventsKept s (effect i s) ∨ (∃ f, i = .openDev f) ∨
      ∃ v, i = .csrw 0x06#8 v ∧ ∀ n, s.csr.events.getLsbD n = true →
        (effect i s).csr.events.getLsbD n = false → v.getLsbD n = true := by
  have refused : EventsKept s (s.raise .badCmd) := (CommandFrame.raise s _).events
  cases i with
  | openDev f => exact .inr (.inl ⟨f, rfl⟩)
  | csrw a v =>
    by_cases ha : a = 0x06#8
    · subst ha
      refine .inr (.inr ⟨v, rfl, ?_⟩)
      exact State.unlessClosed_of (P := fun t => ∀ n, s.csr.events.getLsbD n = true →
          t.csr.events.getLsbD n = false → v.getLsbD n = true)
        (fun n h h' => absurd (refused n h) (by rw [h']; exact Bool.false_ne_true))
        (fun n h h' => (State.writeCsr_clears h h').2)
    · refine .inl (State.unlessClosed_of refused fun n h => ?_)
      by_contra h'
      exact ha (State.writeCsr_clears h (by simpa using h')).1
  | close => exact .inl fun _ h => h
  | pause => exact .inl (State.unlessClosed_of refused fun _ h => h)
  | unpause => exact .inl (State.unlessClosed_of refused fun _ h => h)
  | setmute f => exact .inl (State.unlessClosed_of refused fun _ h => h)
  | tick => exact .inl (tickCommand_frame s).unlessClosed.events
  | queue x => exact .inl (queueCommand_frame _ x s).unlessClosed.events
  | setspeed m => exact .inl (setspeedCommand_frame m s).unlessClosed.events
  | rehash q rate => exact .inl (rehashCommand_frame q rate s).unlessClosed.events
  | csrr a => exact .inl (s.readCsr_frame a).events
  | enqraw x => exact .inl (enqrawCommand_frame x s).unlessClosed.events
  | fill k => exact .inl (fillRequest_frame k.toNat s).events

/-! ## The frame of the steps that run no instruction -/

theorem SameMachine.enqueueStep_frame {s u : State} (h : SameMachine s u) : AgentFrame s u.enqueueStep :=
  h.frame.toAgentFrame.trans u.enqueueStep_frame

theorem SameMachine.refuseCommand_frame {s u : State} (h : SameMachine s u) :
    AgentFrame s u.refuseCommand :=
  h.frame.toAgentFrame.trans (CommandFrame.raise u .badCmd).toAgentFrame

/-! ## MODE and EVENTS across a step -/

/-- Settles O17: the three kinds of step, and of the instructions the five that write MODE. -/
theorem modeChangesOnlyByItsCommands : Obligations.ModeChangesOnlyByItsCommands := by
  unfold Obligations.ModeChangesOnlyByItsCommands
  intro s t h
  obtain ⟨u, _, hu, _, rfl⟩ | ⟨i, u, hsel, hu, _, rfl⟩ | ⟨u, _, hu, _, rfl⟩ := step_cases h
  · have hm := hu.enqueueStep_frame.mode
    exact ⟨absurd hm.life, absurd hm.paused, absurd hm.muted⟩
  · rw [← hu.csr]
    obtain hm | ⟨f, rfl⟩ | ⟨rfl, hp, hm⟩ | ⟨hi, hl, hm⟩ | ⟨⟨f, rfl⟩, hl, hp⟩ := effect_mode_cases i u
    · exact ⟨absurd hm.life, absurd hm.paused, absurd hm.muted⟩
    · exact ⟨fun _ => ⟨u, .inr ⟨f, hsel⟩⟩, fun _ => ⟨u, .inr (.inr ⟨f, hsel⟩)⟩,
        fun _ => ⟨u, f, .inr hsel⟩⟩
    · exact ⟨fun _ => ⟨u, .inl hsel⟩, absurd hp, absurd hm⟩
    · refine ⟨absurd hl, fun _ => ⟨u, ?_⟩, absurd hm⟩
      obtain rfl | rfl := hi
      · exact .inl hsel
      · exact .inr (.inl hsel)
    · exact ⟨absurd hl, absurd hp, fun _ => ⟨u, f, .inl hsel⟩⟩
  · have hm := hu.refuseCommand_frame.mode
    exact ⟨absurd hm.life, absurd hm.paused, absurd hm.muted⟩

/-- Settles O21: of the three kinds of step only an instruction clears a bit, and of the instructions two. -/
theorem eventsAreSticky : Obligations.EventsAreSticky := by
  unfold Obligations.EventsAreSticky
  intro s t n h hset hclear
  have notKept : ¬ EventsKept s t := fun hk => absurd (hk n hset) (by simp [hclear])
  obtain ⟨u, _, hu, _, rfl⟩ | ⟨i, u, hsel, hu, _, rfl⟩ | ⟨u, _, hu, _, rfl⟩ := step_cases h
  · exact absurd hu.enqueueStep_frame.events notKept
  · rw [← hu.csr] at hset
    obtain hk | ⟨f, rfl⟩ | ⟨v, rfl, hv⟩ := effect_events_cases i u
    · exact absurd (hk n hset) (by simp [hclear])
    · exact .inr ⟨f, u, hsel⟩
    · exact .inl ⟨v, u, hsel, hv n hset hclear⟩
  · exact absurd hu.refuseCommand_frame.events notKept

end Sys2Proof.Machine
end

section
/-! PROOFS. The ring buffer's indices and its contents across a dequeue, a commit and a step (10_state.md R29,
R47; 40_ring_buffer.md R112, R117). -/

namespace Sys2Proof.Machine

theorem State.RingInv.start_lt {s : State} (h : s.RingInv) : s.csr.rbStart.toNat < s.params.cap := by
  obtain ⟨hstart, _⟩ := h
  exact hstart

theorem State.RingInv.count_le {s : State} (h : s.RingInv) : s.csr.rbCount.toNat ≤ s.params.cap := by
  obtain ⟨_, _, hcount, _⟩ := h
  exact hcount

/-! ## What FILL's dequeue does to the indices and to the contents -/

theorem State.fillCount_le (s : State) (k : Nat) : s.fillCount k ≤ s.csr.rbCount.toNat :=
  Nat.min_le_right _ _

/-- RB_START moves on by the samples taken, mod CAP. -/
theorem State.dequeue_rbStart_toNat {s : State} (hl : s.params.Legal) (k : Nat) :
    (s.dequeue k).csr.rbStart.toNat = (s.csr.rbStart.toNat + s.fillCount k) % s.params.cap := by
  obtain ⟨hpos, hcap, _⟩ := hl
  have hlt := Nat.mod_lt (s.csr.rbStart.toNat + s.fillCount k) hpos
  rw [State.dequeue_eq]
  simp only [BitVec.toNat_ofNat]
  exact Nat.mod_eq_of_lt (by omega)

/-- RB_COUNT falls by the samples taken. -/
theorem State.dequeue_rbCount_toNat (s : State) (k : Nat) :
    (s.dequeue k).csr.rbCount.toNat = s.csr.rbCount.toNat - s.fillCount k := by
  have hlt := s.csr.rbCount.isLt
  rw [State.dequeue_eq]
  simp only [BitVec.toNat_ofNat]
  exact Nat.mod_eq_of_lt (by omega)

@[simp] theorem State.dequeue_rbEnd (s : State) (k : Nat) : (s.dequeue k).csr.rbEnd = s.csr.rbEnd := by
  rw [State.dequeue_eq]

@[simp] theorem State.dequeue_store (s : State) (k : Nat) : (s.dequeue k).store = s.store := by
  rw [State.dequeue_eq]

/-- A dequeue keeps the index invariant: start and count move by the same number, towards the same end. -/
theorem State.dequeue_ringInv {s : State} (hl : s.params.Legal) (h : s.RingInv) (k : Nat) :
    (s.dequeue k).RingInv := by
  have hr := s.fillCount_le k
  refine .of_end_eq ?_ ?_ ?_
  · rw [State.dequeue_rbStart_toNat hl, State.dequeue_params]
    exact Nat.mod_lt _ hl.1
  · rw [State.dequeue_rbCount_toNat, State.dequeue_params]
    exact (Nat.sub_le _ _).trans h.count_le
  · rw [State.dequeue_rbEnd, h.end_eq, State.dequeue_rbStart_toNat hl, State.dequeue_rbCount_toNat,
      State.dequeue_params, Nat.mod_add_mod, Nat.add_assoc, Nat.add_sub_cancel' hr]

/-- A dequeue takes the oldest samples off the contents. -/
theorem State.dequeue_contents {s : State} (hl : s.params.Legal) (k : Nat) :
    (s.dequeue k).contents = s.contents.drop (s.fillCount k) := by
  rw [State.contents, State.dequeue_rbCount_toNat, State.contents]
  exact (State.window_drop s _ _ _ (s.dequeue_params k) (s.dequeue_store k)
    (State.dequeue_rbStart_toNat hl k)).symm

/-- The samples a dequeue delivers are the oldest of the contents. -/
theorem State.window_fillCount (s : State) (k : Nat) : s.window (s.fillCount k) = s.contents.take k :=
  (s.window_take _ k).symm

/-! ## What a commit does to the indices and to the contents -/

theorem State.fits_le_free (s : State) (g : Nat) : s.fits g ≤ s.params.cap - s.csr.rbCount.toNat :=
  Nat.min_le_right _ _

/-- RB_END moves on by the samples stored, mod CAP. -/
theorem State.commit_rbEnd_toNat {s : State} (hl : s.params.Legal) (block : List Sample) :
    (s.commit block).csr.rbEnd.toNat
      = (s.csr.rbEnd.toNat + s.fits block.length) % s.params.cap := by
  obtain ⟨hpos, hcap, _⟩ := hl
  have hlt := Nat.mod_lt (s.csr.rbEnd.toNat + s.fits block.length) hpos
  rw [State.commit_eq]
  simp only [BitVec.toNat_ofNat]
  exact Nat.mod_eq_of_lt (by omega)

@[simp] theorem State.commit_rbStart (s : State) (block : List Sample) :
    (s.commit block).csr.rbStart = s.csr.rbStart := by
  rw [State.commit_eq]

@[simp] theorem State.commit_phase (s : State) (block : List Sample) : (s.commit block).phase = .idle := by
  rw [State.commit_eq]

@[simp] theorem State.commit_store (s : State) (block : List Sample) :
    (s.commit block).store
      = s.store.writeBlock s.params.cap s.csr.rbEnd.toNat (block.take (s.fits block.length)) := by
  rw [State.commit_eq]

/-- A commit keeps the index invariant: end and count move by the same number, from the same start. -/
theorem State.commit_ringInv {s : State} (hl : s.params.Legal) (h : s.RingInv) (block : List Sample) :
    (s.commit block).RingInv := by
  have hcount := h.count_le
  have hfree := s.fits_le_free block.length
  refine .of_end_eq ?_ ?_ ?_
  · rw [State.commit_rbStart, State.commit_params]
    exact h.start_lt
  · rw [State.commit_rbCount_toNat s block hl hcount, State.commit_params]
    omega
  · rw [State.commit_rbEnd_toNat hl, h.end_eq, State.commit_rbStart,
      State.commit_rbCount_toNat s block hl hcount, State.commit_params, Nat.mod_add_mod, Nat.add_assoc]

/-- A commit leaves the stored samples and puts what fits of the block behind them. -/
theorem State.commit_contents {s : State} (hl : s.params.Legal) (h : s.RingInv) (hm : s.store.wf)
    (block : List Sample) :
    (s.commit block).contents = s.contents ++ block.take (s.fits block.length) := by
  have hcount := h.count_le
  have hfree := s.fits_le_free block.length
  have hfits := s.fits_le block.length
  have hlen : (block.take (s.fits block.length)).length = s.fits block.length := by simp [hfits]
  have written : ∀ i, (s.csr.rbEnd.toNat + i) % s.params.cap
      = (s.csr.rbStart.toNat + (s.csr.rbCount.toNat + i)) % s.params.cap := by
    intro i; rw [h.end_eq, Nat.mod_add_mod, Nat.add_assoc]
  apply List.ext_getElem
  · simp [State.commit_rbCount_toNat s block hl hcount, hfits]
  intro i hi _
  have hi' : i < s.csr.rbCount.toNat + s.fits block.length := by
    simpa [State.commit_rbCount_toNat s block hl hcount] using hi
  have read : (s.commit block).contents[i]
      = (s.store.writeBlock s.params.cap s.csr.rbEnd.toNat (block.take (s.fits block.length))).read
          ((s.csr.rbStart.toNat + i) % s.params.cap) := by
    simp [State.contents, State.window_getElem]
  rw [read]
  by_cases hold : i < s.csr.rbCount.toNat
  · rw [List.getElem_append_left (by simpa using hold), Store.read_writeBlock_other _ _ _ _ _ hm]
    · simp [State.contents, State.window_getElem]
    · intro j hj
      rw [hlen] at hj
      rw [written]
      exact add_mod_ne (by omega) (by omega) (by omega)
  · obtain ⟨j, rfl⟩ := Nat.exists_eq_add_of_le (Nat.le_of_not_lt hold)
    have hj : j < (block.take (s.fits block.length)).length := by omega
    rw [← written, Store.read_writeBlock_mem _ _ _ _ _ hm (by omega) hj,
      List.getElem_append_right (by simp), List.getD_eq_getElem _ _ hj]
    simp

/-! ## What leaves the ring buffer alone -/

theorem SameRing.ringInv {s t : State} (h : SameRing s t) (hs : s.RingInv) : t.RingInv := by
  unfold State.RingInv
  rw [h.params, h.rbStart, h.rbEnd, h.rbCount]
  exact hs

theorem SameRing.contents {s t : State} (h : SameRing s t) : t.contents = s.contents := by
  simp only [State.contents, State.window, h.params, h.store, h.rbStart, h.rbCount]

/-- A wait step that does not commit leaves the ring buffer. -/
theorem State.enqueueStep_ring (s : State) :
    SameRing s s.enqueueStep ∨ s.enqueueStep.phase = .idle ∧
      ∃ r block, SameRing s r ∧ s.enqueueStep = r.commit block := by
  obtain ⟨_, hidle⟩ | ⟨block, polls, _, ⟨_, hcommit⟩ | ⟨_, _, hpoll⟩ | ⟨_, _, htimeout⟩⟩ :=
    s.enqueueStep_cases
  · rw [hidle]; exact .inl (CommandFrame.refl s).ring
  · rw [hcommit]
    exact .inr ⟨s.commit_phase block, s, block, (CommandFrame.refl s).ring, rfl⟩
  · rw [hpoll]; exact .inl ⟨rfl, rfl, rfl, rfl, rfl⟩
  · rw [htimeout]
    exact .inr ⟨State.commit_phase _ block, _, block, (CommandFrame.raise s .waitTimeout).ring, rfl⟩

/-! ## The index invariant across a step (10_state.md R29) -/

theorem fillRequest_ringInv {s : State} (hl : s.params.Legal) (h : s.RingInv) (k : Nat) :
    (fillRequest k s).RingInv := by
  unfold fillRequest
  split_ifs
  · exact h
  · exact s.dequeue_ringInv hl h k

/-- OPEN sets the three registers to 0, and CAP is at least 1. -/
theorem effect_openDev_ringInv {s : State} (hl : s.params.Legal) (f : Bool) :
    (effect (.openDev f) s).RingInv := by
  have hpos : 0 < s.params.cap := hl.1
  rw [effect_openDev]
  exact ⟨hpos, hpos, Nat.zero_le _, rfl⟩

/-- Every instruction keeps the index invariant. -/
theorem effect_ringInv {s : State} (hl : s.params.Legal) (h : s.RingInv) (i : Instr) :
    (effect i s).RingInv := by
  obtain hr | ⟨k, rfl⟩ | ⟨f, rfl⟩ := effect_sameRing i s
  · exact hr.ringInv h
  · exact fillRequest_ringInv hl h k.toNat
  · exact effect_openDev_ringInv hl f

theorem State.enqueueStep_ringInv {s : State} (hl : s.params.Legal) (h : s.RingInv) :
    s.enqueueStep.RingInv := by
  obtain hr | ⟨_, r, block, hr, heq⟩ := s.enqueueStep_ring
  · exact hr.ringInv h
  · rw [heq]
    exact State.commit_ringInv (by rwa [hr.params]) (hr.ringInv h) block

/-- Every step keeps the index invariant. -/
theorem step_ringInv {s t : State} (hl : s.params.Legal) (hs : s.RingInv) (h : step s = .next t) :
    t.RingInv := by
  obtain ⟨u, _, hu, _, rfl⟩ | ⟨i, u, _, hu, _, rfl⟩ | ⟨u, _, hu, _, rfl⟩ := step_cases h
  · exact State.enqueueStep_ringInv (by rwa [hu.params]) (hu.frame.ring.ringInv hs)
  · exact effect_ringInv (by rwa [hu.params]) (hu.frame.ring.ringInv hs) i
  · exact hu.frame.ring.ringInv hs

/-- A step that does not leave the ring buffer alone is a FILL, an OPEN or a commit. -/
theorem step_sameRing {s t : State} (h : step s = .next t) :
    SameRing s t ∨ (∃ k u, s.select = .run (.fill k) u) ∨ (∃ f u, s.select = .run (.openDev f) u) ∨
      ∃ u, s.select = .wait u ∧ t.phase = .idle := by
  obtain ⟨u, hsel, hu, _, rfl⟩ | ⟨i, u, hsel, hu, _, rfl⟩ | ⟨u, _, hu, _, rfl⟩ := step_cases h
  · obtain hr | ⟨hphase, _⟩ := u.enqueueStep_ring
    · exact .inl (hu.frame.ring.trans hr)
    · exact .inr (.inr (.inr ⟨u, hsel, hphase⟩))
  · obtain hr | ⟨k, rfl⟩ | ⟨f, rfl⟩ := effect_sameRing i u
    · exact .inl (hu.frame.ring.trans hr)
    · exact .inr (.inl ⟨k, u, hsel⟩)
    · exact .inr (.inr (.inl ⟨f, u, hsel⟩))
  · exact .inl (hu.frame.ring.trans (CommandFrame.raise u .badCmd).ring)

/-- Settles O31: the dequeue, the commit and OPEN keep the invariant, and every other step leaves the ring
buffer alone. -/
theorem ringIndexInvariant : Obligations.RingIndexInvariant := by
  unfold Obligations.RingIndexInvariant
  refine ⟨fun s t hl hs h => step_ringInv hl hs h, fun s t h hchange => ?_⟩
  refine (step_sameRing h).resolve_left fun hr => ?_
  obtain hc | hc | hc := hchange
  · exact hc hr.rbStart
  · exact hc hr.rbEnd
  · exact hc hr.rbCount

end Sys2Proof.Machine
end

section
/-! PROOFS. The store outside the occupied window is not observable (10_state.md R47): every operation but the
commit and FILL's dequeue does the same on another store, and these two do when the window reads the same. -/

namespace Sys2Proof.Machine

/-! ## The two cases of a FILL, and the wait step by its phase -/

theorem fillRequest_silent {s : State} {k : Nat} (h : s.csr.life ≠ .active ∨ s.csr.paused = true) :
    fillRequest k s = s.deliver (List.replicate k silence) := if_pos h

theorem fillRequest_dequeue {s : State} {k : Nat} (h : ¬ (s.csr.life ≠ .active ∨ s.csr.paused = true)) :
    fillRequest k s = s.dequeue k := if_neg h

theorem State.enqueueStep_idle {s : State} (h : s.phase = .idle) : s.enqueueStep = s := by
  simp only [State.enqueueStep, h]

theorem State.enqueueStep_enqWait {s : State} {block : List Sample} {polls : Nat}
    (h : s.phase = .enqWait block polls) :
    s.enqueueStep =
      if s.hold block.length then
        if polls < s.csr.waitMax.toNat then { s with phase := .enqWait block (polls + 1) }
        else (s.raise .waitTimeout).commit block
      else s.commit block := by
  simp only [State.enqueueStep, h]

/-! ## A state with another store -/

/-- `s`, its store replaced. -/
def State.withStore (s : State) (m : Store) : State := { s with store := m }

/-- The move on the state with its store replaced. -/
def Move.withStore (mv : Move) (m : Store) : Move :=
  match mv with
  | .wait s => .wait (s.withStore m)
  | .run i s => .run i (s.withStore m)
  | .refuse s => .refuse (s.withStore m)
  | .stuck r => .stuck r

@[simp] theorem State.withStore_params (s : State) (m : Store) : (s.withStore m).params = s.params := rfl

@[simp] theorem State.withStore_csr (s : State) (m : Store) : (s.withStore m).csr = s.csr := rfl

@[simp] theorem State.withStore_store (s : State) (m : Store) : (s.withStore m).store = m := rfl

@[simp] theorem State.withStore_phase (s : State) (m : Store) : (s.withStore m).phase = s.phase := rfl

@[simp] theorem State.withStore_cmdIn (s : State) (m : Store) : (s.withStore m).cmdIn = s.cmdIn := rfl

@[simp] theorem State.withStore_sampleIn (s : State) (m : Store) :
    (s.withStore m).sampleIn = s.sampleIn := rfl

@[simp] theorem State.withStore_fillReq (s : State) (m : Store) : (s.withStore m).fillReq = s.fillReq := rfl

/-- The contents read the store, and the ring buffer's registers. -/
theorem SameRing.withStore_contents {s t : State} (h : SameRing s t) (m : Store) :
    (t.withStore m).contents = (s.withStore m).contents :=
  SameRing.contents ⟨h.params, rfl, h.rbStart, h.rbEnd, h.rbCount⟩

/-! ## The step that is chosen does not depend on the store -/

theorem State.producerMove_withStore (s : State) (m : Store) :
    (s.withStore m).producerMove = s.producerMove.withStore m := by
  unfold State.producerMove
  simp only [State.withStore_phase, State.withStore_cmdIn, State.withStore_sampleIn]
  cases s.phase with
  | enqWait block polls => rfl
  | idle =>
    cases takeFrame s.cmdIn s.sampleIn with
    | none => rfl
    | some t => cases hd : decode t.frame <;> simp only [hd] <;> rfl

theorem State.consumerMove_withStore (s : State) (m : Store) :
    (s.withStore m).consumerMove = s.consumerMove.withStore m := by
  unfold State.consumerMove
  simp only [State.withStore_fillReq]
  cases s.fillReq <;> rfl

theorem State.drawn_withStore (s : State) (m : Store) : (s.withStore m).drawn = s.drawn.withStore m := by
  obtain ⟨_, _, _, _, _, _, _, _, _, _, sched, _⟩ := s
  cases sched <;> rfl

theorem State.select_withStore (s : State) (m : Store) :
    (s.withStore m).select = s.select.withStore m := by
  have hc : (s.withStore m).consumerReady = s.consumerReady := rfl
  have hp : (s.withStore m).producerReady = s.producerReady := rfl
  have ha : (s.withStore m).chosen = s.chosen := rfl
  unfold State.select
  rw [hc, hp, ha, State.drawn_withStore, State.producerMove_withStore, State.consumerMove_withStore,
    State.producerMove_withStore, State.consumerMove_withStore]
  cases s.consumerReady
  · rfl
  · cases s.producerReady
    · rfl
    · cases s.chosen <;> rfl

/-! ## The operations that read no stored sample do the same on another store -/

theorem State.raise_withStore (s : State) (e : Event) (m : Store) :
    (s.withStore m).raise e = (s.raise e).withStore m := rfl

theorem State.ite_withStore {c : Prop} [Decidable c] (s t : State) (m : Store) :
    (if c then s else t).withStore m = if c then s.withStore m else t.withStore m :=
  apply_ite (State.withStore · m) c s t

theorem State.unlessClosed_withStore {s t t' : State} {m : Store} (h : t' = t.withStore m) :
    (s.withStore m).unlessClosed t' = (s.unlessClosed t).withStore m := by
  subst h
  by_cases hc : s.csr.life = .closed
  · rw [State.unlessClosed_of_closed s t hc, State.unlessClosed_of_closed (s.withStore m) _ hc,
      State.raise_withStore]
  · rw [State.unlessClosed_of_open s t hc, State.unlessClosed_of_open (s.withStore m) _ hc]

theorem tickCommand_withStore (s : State) (m : Store) :
    tickCommand (s.withStore m) = (tickCommand s).withStore m := by
  simp only [tickCommand, State.raiseIf_eq]
  rfl

theorem queueSnapshot_withStore (conv : Converter) (x : List Sample) (s : State) (m : Store) :
    queueSnapshot conv x (s.withStore m) = (queueSnapshot conv x s).withStore m := by
  simp only [queueSnapshot, State.raiseIf_eq]
  rfl

theorem queueCommand_withStore (conv : Converter) (x : List Sample) (s : State) (m : Store) :
    queueCommand conv x (s.withStore m) = (queueCommand conv x s).withStore m := by
  simp only [queueCommand, State.ite_withStore, queueSnapshot_withStore]
  rfl

theorem enqrawCommand_withStore (x : List Sample) (s : State) (m : Store) :
    enqrawCommand x (s.withStore m) = (enqrawCommand x s).withStore m := by
  simp only [enqrawCommand, State.ite_withStore]
  rfl

theorem rehashCommand_withStore (q : BitVec 4) (rate : BitVec 20) (s : State) (m : Store) :
    rehashCommand q rate (s.withStore m) = (rehashCommand q rate s).withStore m := by
  simp only [rehashCommand, State.ite_withStore]
  rfl

theorem setspeedCommand_withStore (v : BitVec 8) (s : State) (m : Store) :
    setspeedCommand v (s.withStore m) = (setspeedCommand v s).withStore m := by
  simp only [setspeedCommand, State.ite_withStore]
  rfl

/-- No register's value is a stored sample. -/
theorem Csr.value_withStore (c : Csr) (s : State) (m : Store) : c.value (s.withStore m) = c.value s := by
  cases c with
  | ro r => cases r <;> rfl
  | rw r => cases r <;> rfl
  | events => rfl

theorem State.readCsr_withStore (s : State) (a : BitVec 8) (m : Store) :
    (s.withStore m).readCsr a = (s.readCsr a).withStore m := by
  unfold State.readCsr
  cases csrAt a with
  | none => rfl
  | some c => simp only [Csr.value_withStore]; rfl

theorem State.writeCsr_withStore (s : State) (a : BitVec 8) (v : Word) (m : Store) :
    (s.withStore m).writeCsr a v = (s.writeCsr a v).withStore m := by
  unfold State.writeCsr
  rcases csrAt a with _ | _ | r | _
  case some.rw => cases hl : r.legal s.params v <;> simp [hl] <;> rfl
  all_goals rfl

/-- Every instruction but FILL does the same on another store. -/
theorem effect_withStore (i : Instr) (s : State) (m : Store) :
    effect i (s.withStore m) = (effect i s).withStore m ∨ ∃ k, i = .fill k := by
  cases i with
  | fill k => exact .inr ⟨k, rfl⟩
  | openDev f => exact .inl rfl
  | close => exact .inl rfl
  | tick => exact .inl (State.unlessClosed_withStore (tickCommand_withStore s m))
  | queue x => exact .inl (State.unlessClosed_withStore (queueCommand_withStore _ x s m))
  | setspeed v => exact .inl (State.unlessClosed_withStore (setspeedCommand_withStore v s m))
  | pause => exact .inl (State.unlessClosed_withStore rfl)
  | unpause => exact .inl (State.unlessClosed_withStore rfl)
  | setmute f => exact .inl (State.unlessClosed_withStore rfl)
  | rehash q rate => exact .inl (State.unlessClosed_withStore (rehashCommand_withStore q rate s m))
  | csrw a v => exact .inl (State.unlessClosed_withStore (s.writeCsr_withStore a v m))
  | csrr a => exact .inl (s.readCsr_withStore a m)
  | enqraw x => exact .inl (State.unlessClosed_withStore (enqrawCommand_withStore x s m))

/-! ## The dequeue and the commit -/

/-- A dequeue reads the occupied window alone. -/
theorem State.dequeue_withStore {s : State} {m : Store} (h : (s.withStore m).contents = s.contents)
    (k : Nat) : (s.withStore m).dequeue k = (s.dequeue k).withStore m := by
  have hr : (s.withStore m).fillCount k = s.fillCount k := rfl
  have hw : (s.withStore m).window (s.fillCount k) = s.window (s.fillCount k) := by
    rw [s.window_fillCount, ← h]
    exact (s.withStore m).window_fillCount k
  rw [State.dequeue_eq, State.dequeue_eq, hr, hw]
  rfl

/-- A commit writes its block into whatever store there is. -/
theorem State.commit_withStore (s : State) (m : Store) (block : List Sample) :
    (s.withStore m).commit block
      = (s.commit block).withStore
          (m.writeBlock s.params.cap s.csr.rbEnd.toNat (block.take (s.fits block.length))) := by
  rw [State.commit_eq, State.commit_eq]
  rfl

/-! ## A step and the same step on another store -/

/-- `t` is `s` but for store elements outside the occupied window. -/
def SameVisible (s t : State) : Prop := ∃ m, t = s.withStore m ∧ t.contents = s.contents

/-- What the step needs of the store `m` that stands in place of the store of `s`: both are in canonical form
and read the same over the occupied window. -/
structure Interchangeable (s : State) (m : Store) : Prop where
  legal : s.params.Legal
  ring : s.RingInv
  wf : s.store.wf
  wf' : m.wf
  contents : (s.withStore m).contents = s.contents

/-- Nothing that leaves the ring buffer alone makes a difference. -/
theorem Interchangeable.of_sameRing {s u : State} {m : Store} (h : Interchangeable s m)
    (hr : SameRing s u) : Interchangeable u m where
  legal := by rw [hr.params]; exact h.legal
  ring := hr.ringInv h.ring
  wf := by rw [hr.store]; exact h.wf
  wf' := h.wf'
  contents := by rw [hr.withStore_contents, h.contents, hr.contents]

theorem Interchangeable.sameVisible {s : State} {m : Store} (h : Interchangeable s m) :
    SameVisible s (s.withStore m) := ⟨m, rfl, h.contents⟩

theorem Interchangeable.dequeue {s : State} {m : Store} (h : Interchangeable s m) (k : Nat) :
    SameVisible (s.dequeue k) ((s.withStore m).dequeue k) := by
  refine ⟨m, State.dequeue_withStore h.contents k, ?_⟩
  have hr : (s.withStore m).fillCount k = s.fillCount k := rfl
  rw [State.dequeue_contents h.legal, State.dequeue_contents (s := s.withStore m) h.legal, hr, h.contents]

theorem Interchangeable.fillRequest {s : State} {m : Store} (h : Interchangeable s m) (k : Nat) :
    SameVisible (fillRequest k s) (fillRequest k (s.withStore m)) := by
  by_cases hc : s.csr.life ≠ .active ∨ s.csr.paused = true
  · rw [fillRequest_silent hc, fillRequest_silent (s := s.withStore m) hc]
    exact ⟨m, rfl, h.contents⟩
  · rw [fillRequest_dequeue hc, fillRequest_dequeue (s := s.withStore m) hc]
    exact h.dequeue k

theorem Interchangeable.commit {s : State} {m : Store} (h : Interchangeable s m) (block : List Sample) :
    SameVisible (s.commit block) ((s.withStore m).commit block) := by
  refine ⟨_, s.commit_withStore m block, ?_⟩
  have ha : (s.withStore m).fits block.length = s.fits block.length := rfl
  rw [State.commit_contents h.legal h.ring h.wf,
    State.commit_contents (s := s.withStore m) h.legal h.ring h.wf', ha, h.contents]

/-- OPEN leaves the two states an empty window, every other instruction but FILL the window they had. -/
theorem Interchangeable.effect {s : State} {m : Store} (h : Interchangeable s m) (i : Instr) :
    SameVisible (effect i s) (effect i (s.withStore m)) := by
  obtain hr | ⟨k, rfl⟩ | ⟨f, rfl⟩ := effect_sameRing i s
  · obtain heq | ⟨k, rfl⟩ := effect_withStore i s m
    · rw [heq]; exact (h.of_sameRing hr).sameVisible
    · exact h.fillRequest k.toNat
  · exact h.fillRequest k.toNat
  · exact ⟨m, rfl, rfl⟩

theorem Interchangeable.enqueueStep {s : State} {m : Store} (h : Interchangeable s m) :
    SameVisible s.enqueueStep (s.withStore m).enqueueStep := by
  cases hp : s.phase with
  | idle =>
    rw [State.enqueueStep_idle hp, State.enqueueStep_idle (s := s.withStore m) hp]
    exact h.sameVisible
  | enqWait block polls =>
    rw [State.enqueueStep_enqWait hp, State.enqueueStep_enqWait (s := s.withStore m) hp]
    have hhold : (s.withStore m).hold block.length = s.hold block.length := rfl
    rw [hhold]
    by_cases hh : s.hold block.length = true
    · rw [if_pos hh, if_pos hh]
      by_cases hw : polls < s.csr.waitMax.toNat
      · rw [if_pos hw, if_pos (show polls < (s.withStore m).csr.waitMax.toNat from hw)]
        exact ⟨m, rfl, h.contents⟩
      · rw [if_neg hw, if_neg (show ¬ polls < (s.withStore m).csr.waitMax.toNat from hw)]
        exact (h.of_sameRing (CommandFrame.raise s .waitTimeout).ring).commit block
    · rw [if_neg hh, if_neg hh]
      exact h.commit block

theorem Interchangeable.refuseCommand {s : State} {m : Store} (h : Interchangeable s m) :
    SameVisible s.refuseCommand (s.withStore m).refuseCommand :=
  (h.of_sameRing (CommandFrame.raise s .badCmd).ring).sameVisible

/-- The step on another store, whose occupied window reads the same. -/
theorem Interchangeable.step {s t : State} {m : Store} (h : Interchangeable s m)
    (hstep : step s = .next t) : ∃ t', step (s.withStore m) = .next t' ∧ SameVisible t t' := by
  unfold Machine.step
  rw [State.select_withStore]
  obtain ⟨u, hsel, hu, _, rfl⟩ | ⟨i, u, hsel, hu, _, rfl⟩ | ⟨u, hsel, hu, _, rfl⟩ := step_cases hstep
  · rw [hsel]
    exact ⟨_, rfl, (h.of_sameRing hu.frame.ring).enqueueStep⟩
  · rw [hsel]
    exact ⟨_, exec_eq i _, (h.of_sameRing hu.frame.ring).effect i⟩
  · rw [hsel]
    exact ⟨_, rfl, (h.of_sameRing hu.frame.ring).refuseCommand⟩

/-- Settles O34: a step reads the store by FILL's dequeue alone, which reads the window, and writes it by the
commit alone, which appends the same samples to both windows. -/
theorem unoccupiedStoreIsUnobservable : Obligations.UnoccupiedStoreIsUnobservable := by
  unfold Obligations.UnoccupiedStoreIsUnobservable
  intro s t m hl hr hs hm hc hstep
  obtain ⟨_, hstep', m', rfl, hc'⟩ := Interchangeable.step ⟨hl, hr, hs, hm, hc⟩ hstep
  exact ⟨m', hstep', hc'⟩

end Sys2Proof.Machine
end

section
/-! PROOFS. The response queue (10_state.md R51, 70_reset_and_hazards.md R256): what each operation adds to it. -/

namespace Sys2Proof.Machine

/-! ## Operations that leave the responses -/

@[simp] theorem State.dequeue_responses (s : State) (k : Nat) : (s.dequeue k).responses = s.responses := by
  rw [State.dequeue_eq]

@[simp] theorem State.commit_responses (s : State) (block : List Sample) :
    (s.commit block).responses = s.responses := by
  rw [State.commit_eq]

@[simp] theorem State.enqueueStep_responses (s : State) : s.enqueueStep.responses = s.responses := by
  obtain ⟨_, hidle⟩ | ⟨block, polls, _, ⟨_, hcommit⟩ | ⟨_, _, hpoll⟩ | ⟨_, _, htimeout⟩⟩ :=
    s.enqueueStep_cases
  · rw [hidle]
  · rw [hcommit, State.commit_responses]
  · rw [hpoll]
  · rw [htimeout, State.commit_responses, State.raise_responses]

@[simp] theorem State.writeCsr_responses (s : State) (a : BitVec 8) (v : Word) :
    (s.writeCsr a v).responses = s.responses := by
  obtain h | ⟨_, h⟩ | ⟨r, h⟩ := s.writeCsr_cases a v
  · rw [h, State.raise_responses]
  · rw [h]
  · rw [h]

@[simp] theorem queueSnapshot_responses (conv : Converter) (x : List Sample) (s : State) :
    (queueSnapshot conv x s).responses = s.responses := by
  obtain ⟨_, _, _, _, _, _, _, _, heq⟩ := queueSnapshot_eq conv x s
  rw [heq]

@[simp] theorem queueCommand_responses (conv : Converter) (x : List Sample) (s : State) :
    (queueCommand conv x s).responses = s.responses := by
  unfold queueCommand
  split_ifs <;> simp

@[simp] theorem enqrawCommand_responses (x : List Sample) (s : State) :
    (enqrawCommand x s).responses = s.responses := by
  unfold enqrawCommand
  split_ifs <;> simp

@[simp] theorem rehashCommand_responses (q : BitVec 4) (rate : BitVec 20) (s : State) :
    (rehashCommand q rate s).responses = s.responses := by
  unfold rehashCommand
  split_ifs <;> simp

@[simp] theorem setspeedCommand_responses (m : BitVec 8) (s : State) :
    (setspeedCommand m s).responses = s.responses := by
  unfold setspeedCommand
  split_ifs <;> simp

@[simp] theorem fillRequest_responses (k : Nat) (s : State) : (fillRequest k s).responses = s.responses := by
  unfold fillRequest
  split_ifs <;> simp

/-- The lifecycle check leaves the responses that the guarded effect leaves. -/
theorem State.unlessClosed_responses {s t : State} (h : t.responses = s.responses) :
    (s.unlessClosed t).responses = s.responses :=
  State.unlessClosed_of (P := fun r => r.responses = s.responses) (s.raise_responses .badCmd) h

/-! ## TICK and CSRR respond once -/

theorem tickCommand_responses (s : State) :
    ∃ v, (tickCommand s).responses = s.responses ++ [v] := by
  simp [tickCommand]

theorem State.readCsr_responses (s : State) (a : BitVec 8) :
    ∃ v, (s.readCsr a).responses = s.responses ++ [v] := by
  obtain ⟨v, h⟩ | h := s.readCsr_cases a
  · exact ⟨v, by rw [h, State.respond_responses]⟩
  · exact ⟨0#32, by rw [h, State.respond_responses, State.raise_responses]⟩

/-- Settles O23, instruction by instruction. -/
theorem responsesInCommandOrder : Obligations.ResponsesInCommandOrder := by
  unfold Obligations.ResponsesInCommandOrder
  intro i s t h
  obtain rfl := exec_next_iff.1 h
  have wait := s.enqueueStep_responses
  cases i with
  | openDev f => rfl
  | csrr a => exact s.readCsr_responses a
  | tick =>
    dsimp only
    split_ifs with hc
    · rw [effect_tick, State.unlessClosed_of_closed _ _ hc, State.raise_responses]
    · rw [effect_tick, State.unlessClosed_of_open _ _ hc]
      exact tickCommand_responses s
  | close => exact ⟨rfl, wait⟩
  | queue x => exact ⟨State.unlessClosed_responses (queueCommand_responses _ x s), wait⟩
  | setspeed m => exact ⟨State.unlessClosed_responses (setspeedCommand_responses m s), wait⟩
  | pause => exact ⟨State.unlessClosed_responses rfl, wait⟩
  | unpause => exact ⟨State.unlessClosed_responses rfl, wait⟩
  | setmute f => exact ⟨State.unlessClosed_responses rfl, wait⟩
  | rehash q rate => exact ⟨State.unlessClosed_responses (rehashCommand_responses q rate s), wait⟩
  | csrw a v => exact ⟨State.unlessClosed_responses (s.writeCsr_responses a v), wait⟩
  | enqraw x => exact ⟨State.unlessClosed_responses (enqrawCommand_responses x s), wait⟩
  | fill k => exact ⟨fillRequest_responses k.toNat s, wait⟩

end Sys2Proof.Machine
end

section
/-! PROOFS. A step runs what stands first on the ports (10_state.md R21, 30_encoding.md R90, R88,
60_exceptions.md R214). -/

namespace Sys2Proof.Machine

/-! ## A decoded command is well formed -/

/-- A payload is no longer than the 16-bit field N says (30_encoding.md R83, R90). -/
theorem takeFrame_payloadFits {cmd : List Word} {smp : List Sample} {t : Framed}
    (h : takeFrame cmd smp = some t) : PayloadFits t.frame.payload := by
  cases cmd with
  | nil => simp [takeFrame] at h
  | cons w rest =>
    rw [takeFrame_cons] at h
    split at h
    case isFalse => cases h
    obtain rfl := Option.some.inj h
    have hn : trailingSamples w < 65536 := by
      unfold trailingSamples
      split_ifs
      · exact (fieldN w).isLt
      · omega
    exact (List.length_take_le _ _).trans_lt hn

theorem unlessReserved_wellFormed {reserved w : Word} {i j : Instr} (hi : i.WellFormed)
    (h : unlessReserved reserved w i = .ok j) : j.WellFormed := by
  obtain ⟨_, rfl⟩ := unlessReserved_eq_ok.1 h
  exact hi

/-- What decodes is well formed, since only the frame's payload can be too long. -/
theorem decode_wellFormed {f : Frame} {i : Instr} (hp : PayloadFits f.payload) (h : decode f = .ok i) :
    i.WellFormed := by
  unfold decode at h
  split at h
  case h_4 | h_12 => exact unlessReserved_wellFormed hp h
  case h_13 => cases h
  all_goals exact unlessReserved_wellFormed True.intro h

/-! ## The agents' steps -/

theorem State.producerMove_run {s : State} {t : Framed} {i : Instr} (hp : s.phase = .idle)
    (ht : takeFrame s.cmdIn s.sampleIn = some t) (hd : decode t.frame = .ok i) :
    s.producerMove = .run i { s with cmdIn := t.cmdRest, sampleIn := t.sampleRest } := by
  simp only [State.producerMove, hp, ht, hd]

theorem State.consumerMove_run {s : State} {k : Length} {ks : List Length} (h : s.fillReq = k :: ks) :
    s.consumerMove = .run (.fill k) { s with fillReq := ks } := by
  simp only [State.consumerMove, h, decodeFill]

theorem State.producerReady_of_takeFrame {s : State} {t : Framed} (hp : s.phase = .idle)
    (ht : takeFrame s.cmdIn s.sampleIn = some t) : s.producerReady = true := by
  simp [State.producerReady, hp, ht]

theorem State.consumerReady_iff (s : State) : s.consumerReady = true ↔ s.fillReq ≠ [] := by
  simp [State.consumerReady]

/-! ## Who moves -/

theorem State.select_of_no_request {s : State} (h : s.fillReq = []) : s.select = s.producerMove := by
  have hc : ¬ s.consumerReady = true := by rw [State.consumerReady_iff]; exact not_not.2 h
  rw [State.select, if_neg hc]

theorem State.select_of_producer_silent {s : State} (hc : s.consumerReady = true)
    (hp : s.producerReady = false) : s.select = s.consumerMove := by
  simp [State.select, hc, hp]

/-- Where both are ready the producer moves if the schedule names it, and the choice is used up. -/
theorem State.select_of_sched_producer {s : State} {rest : List Agent} (hc : s.consumerReady = true)
    (hp : s.producerReady = true) (h : s.sched = .producer :: rest) :
    s.select = ({ s with sched := rest } : State).producerMove := by
  simp only [State.select, hc, hp, if_true, State.chosen, State.drawn, h]

/-- Where both are ready the consumer moves if the schedule names it, and the choice is used up. -/
theorem State.select_of_sched_consumer {s : State} {rest : List Agent} (hc : s.consumerReady = true)
    (hp : s.producerReady = true) (h : s.sched = .consumer :: rest) :
    s.select = ({ s with sched := rest } : State).consumerMove := by
  simp only [State.select, hc, hp, if_true, State.chosen, State.drawn, h]

/-- Settles O6: who moves, then what its move runs. -/
theorem stepRunsTheDecodedCommand : Obligations.StepRunsTheDecodedCommand := by
  unfold Obligations.StepRunsTheDecodedCommand
  intro s t i hp ht hd
  refine ⟨decode_wellFormed (takeFrame_payloadFits ht) hd, ?_, fun hf => ?_, fun rest hs hf => ?_⟩
  · rw [producerStep, State.producerMove_run hp ht hd]
    rfl
  · rw [step, State.select_of_no_request hf, State.producerMove_run hp ht hd]
    rfl
  · have hc : s.consumerReady = true := s.consumerReady_iff.2 hf
    have hr : s.producerReady = true := State.producerReady_of_takeFrame hp ht
    rw [step, State.select_of_sched_producer hc hr hs,
      State.producerMove_run (s := { s with sched := rest }) hp ht hd]
    rfl

/-- Settles O7: who moves, then what its move runs. -/
theorem stepRunsTheFillRequest : Obligations.StepRunsTheFillRequest := by
  unfold Obligations.StepRunsTheFillRequest
  intro s k ks hf
  have hc : s.consumerReady = true := s.consumerReady_iff.2 (by rw [hf]; exact List.cons_ne_nil _ _)
  refine ⟨?_, fun hp => ?_, fun rest hs hp => ?_⟩
  · rw [consumerStep, State.consumerMove_run hf]
    rfl
  · rw [step, State.select_of_producer_silent hc hp, State.consumerMove_run hf]
    rfl
  · rw [step, State.select_of_sched_consumer hc hp hs,
      State.consumerMove_run (s := { s with sched := rest }) hf]
    rfl

end Sys2Proof.Machine
end

section
/-! PROOFS. The CSR map and its accesses (10_state.md R24 to R26, R42). -/

namespace Sys2Proof.Machine

/-! ## The map -/

/-- The read-write registers, in the order of their addresses. -/
def rwCsrs : List RwCsr :=
  [.underrunCnt, .dropCnt, .acceptCnt, .deliverCnt, .spc, .targetLow, .maxocc, .scale, .hostTickMs, .corrMax,
    .channels, .waitMax, .frametime, .refresh, .refreshMin, .refreshMax, .refreshFallback, .frameAcc,
    .frameMult, .decim]

theorem mem_rwCsrs (r : RwCsr) : r ∈ rwCsrs := by cases r <;> decide

/-- The map is one to one: each register is found at its address. -/
@[simp] theorem csrAt_of_addr (c : Csr) : csrAt c.addr = some c := by
  cases c with
  | ro r => cases r <;> rfl
  | rw r => cases r <;> rfl
  | events => rfl

/-- Every register is in the map. -/
theorem mem_csrMap (c : Csr) : c ∈ csrMap := List.mem_of_find?_eq_some (csrAt_of_addr c)

/-- An address is unmapped when it is no register's. -/
theorem csrAt_eq_none {a : BitVec 8} (h : a ∉ csrMap.map Csr.addr) : csrAt a = none := by
  refine Option.eq_none_iff_forall_not_mem.2 fun c hc => h ?_
  exact List.mem_map.2 ⟨c, mem_csrMap c, csrAt_addr hc⟩

/-! ## CSRR -/

theorem State.readCsr_addr (s : State) (c : Csr) : s.readCsr c.addr = s.respond (c.value s) := by
  simp [State.readCsr]

theorem State.readCsr_unmapped {s : State} {a : BitVec 8} (h : csrAt a = none) :
    s.readCsr a = (s.raise .badArg).respond 0#32 := by
  simp [State.readCsr, h]

/-- SCRATCH holds OUT_MAX above IN_MAX. -/
theorem ofNat_scratch (outMax inMax : Nat) :
    BitVec.ofNat 32 (outMax % 65536 * 65536 + inMax % 65536)
      = BitVec.ofNat 16 outMax ++ BitVec.ofNat 16 inMax := by
  apply BitVec.eq_of_toNat_eq
  simp only [BitVec.toNat_append, BitVec.toNat_ofNat]
  rw [← Nat.shiftLeft_add_eq_or_of_lt (Nat.mod_lt _ (by decide)), Nat.shiftLeft_eq]
  omega

/-- CHMAX holds the low four bits of CH_MAX. -/
theorem ofNat_chmax (chMax : Nat) :
    BitVec.ofNat 32 (chMax % 16) = (BitVec.ofNat 4 chMax).setWidth 32 := by
  apply BitVec.eq_of_toNat_eq
  simp

/-- MODE holds LIFE in its low two bits, PAUSED and MUTED above them. -/
theorem ofNat_mode (c : Csrs) :
    BitVec.ofNat 32 (c.life.bits.toNat + 4 * c.paused.toNat + 8 * c.muted.toNat) = c.mode := by
  unfold Csrs.mode
  cases c.life <;> cases c.paused <;> cases c.muted <;> rfl

/-- Settles O18: the list of R24 gives each register's address and value, in the map's order. -/
theorem csrrReadsTheMap : Obligations.CsrrReadsTheMap := by
  unfold Obligations.CsrrReadsTheMap
  intro s c life map
  have hmap : map.map (fun p => (p.1, BitVec.ofNat 32 p.2)) = csrMap.map fun r => (r.addr, r.value s) := by
    have hlife : c.life.bits.toNat = life := by cases hl : c.life <;> simp [life, hl, Life.bits]
    simp [map, c, csrMap, csrMapLow, csrMapMid, csrMapHigh, Csr.addr, RoCsr.addr, RwCsr.addr, Csr.value,
      RwCsr.value, RoCsr.value, Config.idValue, Config.versionValue, ← hlife, ofNat_scratch, ofNat_chmax,
      ofNat_mode]
  refine ⟨fun p hp => ?_, fun a ha => ?_⟩
  · have hp' := List.mem_map_of_mem (f := fun p => (p.1, BitVec.ofNat 32 p.2)) hp
    rw [hmap] at hp'
    obtain ⟨r, _, hr⟩ := List.mem_map.1 hp'
    obtain ⟨haddr, hval⟩ := Prod.mk.inj hr
    rw [exec_eq, effect_csrr, ← haddr, State.readCsr_addr, hval]
    rfl
  · rw [exec_eq, effect_csrr, State.readCsr_unmapped (csrAt_eq_none ha)]
    rfl

/-! ## CSRW -/

theorem State.writeCsr_legal {s : State} {r : RwCsr} {v : Word} (h : r.legal s.params v = true) :
    s.writeCsr r.addr v = { s with csr := r.set v s.csr } := by
  have hc : csrAt r.addr = some (.rw r) := csrAt_of_addr (.rw r)
  simp [State.writeCsr, hc, h]

theorem State.writeCsr_illegal {s : State} {r : RwCsr} {v : Word} (h : ¬ r.legal s.params v = true) :
    s.writeCsr r.addr v = s.raise .badArg := by
  have hc : csrAt r.addr = some (.rw r) := csrAt_of_addr (.rw r)
  simp [State.writeCsr, hc, h]

theorem RwCsr.legal_iff (p : Params) (r : RwCsr) (v : Word) :
    r.legal p v = true ↔ (r.range p).1 ≤ v.toNat ∧ v.toNat ≤ (r.range p).2 := by
  simp [RwCsr.legal]

theorem State.writeCsr_events (s : State) (v : Word) :
    s.writeCsr 0x06#8 v
      = { s with csr := { s.csr with events := clearEvents s.csr.events v } } := rfl

/-- A CSRW of an address that is neither EVENTS nor a read-write register's writes nothing. -/
theorem State.writeCsr_readOnly {s : State} {a : BitVec 8} {v : Word} (he : a ≠ 0x06#8)
    (hrw : a ∉ rwCsrs.map RwCsr.addr) : s.writeCsr a v = s.raise .badArg := by
  unfold State.writeCsr
  cases hc : csrAt a with
  | none => rfl
  | some c =>
    have ha := csrAt_addr hc
    cases c with
    | ro r => rfl
    | events => exact absurd ha.symm he
    | rw r => exact absurd (List.mem_map.2 ⟨r, mem_rwCsrs r, ha⟩) hrw

/-- A CSRW outside CLOSED. -/
theorem exec_csrw_of_open {s : State} {a : BitVec 8} {v : Word} (h : s.csr.life ≠ .closed) :
    exec (.csrw a v) s = .next (s.writeCsr a v) := by
  rw [exec_eq, effect_csrw, State.unlessClosed_of_open _ _ h]

theorem clearEvents_eq (events : BitVec 12) (v : Word) :
    clearEvents events v = events &&& ~~~BitVec.ofNat 12 v.toNat := by
  rfl

/-- Settles O19: the list of R24 gives each read-write register's address, range and effect. -/
theorem csrwFourCases : Obligations.CsrwFourCases := by
  unfold Obligations.CsrwFourCases
  intro s v hopen c n rws
  have hrws : rws = rwCsrs.map fun r =>
      (r.addr, (r.range s.params).1, (r.range s.params).2, r.set v s.csr) := by
    rfl
  refine ⟨fun e he => ?_, ?_, fun a he ha => ?_⟩
  · rw [hrws] at he
    obtain ⟨r, _, rfl⟩ := List.mem_map.1 he
    rw [exec_csrw_of_open hopen]
    dsimp only
    by_cases hl : r.legal s.params v = true
    · rw [State.writeCsr_legal hl, if_pos ((r.legal_iff _ v).1 hl)]
    · rw [State.writeCsr_illegal hl, if_neg fun h => hl ((r.legal_iff _ v).2 h)]
      rfl
  · rw [exec_csrw_of_open hopen, State.writeCsr_events, clearEvents_eq]
  · rw [exec_csrw_of_open hopen, State.writeCsr_readOnly he ha]
    rfl

/-! ## A CSRW read back -/

/-- No bit is lost of a value that fits the field. -/
theorem zeroExtend_truncate {n : Nat} {v : Word} (h : v.toNat < 2 ^ n) :
    (v.truncate n).zeroExtend 32 = v := by
  apply BitVec.eq_of_toNat_eq
  simp only [BitVec.truncate, BitVec.zeroExtend, BitVec.toNat_setWidth]
  rw [Nat.mod_eq_of_lt h, Nat.mod_eq_of_lt v.isLt]

/-- A read-write register holds the legal value that was written. -/
theorem RwCsr.value_set {s : State} {r : RwCsr} {v : Word} (hp : s.params.Legal)
    (h : v.toNat ≤ (r.range s.params).2) : r.value { s with csr := r.set v s.csr } = v := by
  obtain ⟨_, _, _, _, _, hch, _⟩ := hp
  cases r with
  | underrunCnt | dropCnt | acceptCnt | deliverCnt | waitMax | frametime | frameAcc => rfl
  | targetLow | maxocc | frameMult | decim =>
    exact zeroExtend_truncate (n := 8) (Nat.lt_succ_of_le h)
  | spc | scale | hostTickMs | corrMax | refresh | refreshMin | refreshMax | refreshFallback =>
    exact zeroExtend_truncate (n := 16) (Nat.lt_succ_of_le h)
  | channels => exact zeroExtend_truncate (n := 4) (Nat.lt_succ_of_le (h.trans hch))

/-- Settles O20: the legal value is written and no event raised, and the register then holds that value. -/
theorem csrwThenCsrrReadsBack : Obligations.CsrwThenCsrrReadsBack := by
  unfold Obligations.CsrwThenCsrrReadsBack
  intro s r v hopen hp hlow hhigh
  have hl : r.legal s.params v = true := (r.legal_iff _ v).2 ⟨hlow, hhigh⟩
  have hread := State.readCsr_addr { s with csr := r.set v s.csr } (.rw r)
  rw [show (Csr.rw r).value _ = v from RwCsr.value_set hp hhigh] at hread
  refine ⟨{ s with csr := r.set v s.csr }, ?_, ?_, exec_next_iff.2 hread.symm⟩
  · rw [exec_csrw_of_open hopen, State.writeCsr_legal hl]
  · simp [newEvents]

end Sys2Proof.Machine
end

section
/-! PROOFS. Sample conservation (20_memory.md R73): which operations leave the three terms of
`ACCEPT_CNT = DELIVER_CNT + RB_COUNT`, and how the dequeue, the commit and OPEN move them. -/

namespace Sys2Proof.Machine

/-! ## What leaves the three counters alone -/

/-- The terms of the conservation law are the same (20_memory.md R73). -/
structure SameCounts (s t : State) : Prop where
  acceptCnt : t.csr.acceptCnt = s.csr.acceptCnt
  deliverCnt : t.csr.deliverCnt = s.csr.deliverCnt
  rbCount : t.csr.rbCount = s.csr.rbCount

theorem SameCounts.refl (s : State) : SameCounts s s := ⟨rfl, rfl, rfl⟩

theorem SameCounts.raise (s : State) (e : Event) : SameCounts s (s.raise e) := ⟨rfl, rfl, rfl⟩

theorem SameMachine.sameCounts {s u : State} (h : SameMachine s u) : SameCounts s u := by
  constructor <;> rw [h.csr]

theorem SameCounts.conserved {s t : State} (h : SameCounts s t) (hs : s.Conserved) : t.Conserved := by
  unfold State.Conserved
  rw [h.acceptCnt, h.deliverCnt, h.rbCount]
  exact hs

/-- The counters pass through the lifecycle check. -/
theorem SameCounts.unlessClosed {s t : State} (h : SameCounts s t) : SameCounts s (s.unlessClosed t) :=
  State.unlessClosed_of (.raise s .badCmd) h

theorem tickCommand_sameCounts (s : State) : SameCounts s (tickCommand s) := by
  constructor <;> simp [tickCommand]

theorem queueCommand_sameCounts (conv : Converter) (x : List Sample) (s : State) :
    SameCounts s (queueCommand conv x s) := by
  unfold queueCommand
  split_ifs
  · exact .refl s
  · exact .raise s _
  · exact .refl s
  · obtain ⟨_, _, _, _, _, _, _, _, heq⟩ := queueSnapshot_eq conv x s
    rw [heq]
    exact ⟨rfl, rfl, rfl⟩

theorem enqrawCommand_sameCounts (x : List Sample) (s : State) : SameCounts s (enqrawCommand x s) := by
  unfold enqrawCommand
  split_ifs <;> exact ⟨rfl, rfl, rfl⟩

theorem rehashCommand_sameCounts (q : BitVec 4) (rate : BitVec 20) (s : State) :
    SameCounts s (rehashCommand q rate s) := by
  unfold rehashCommand
  split_ifs <;> exact ⟨rfl, rfl, rfl⟩

theorem setspeedCommand_sameCounts (m : BitVec 8) (s : State) : SameCounts s (setspeedCommand m s) := by
  unfold setspeedCommand
  split_ifs <;> exact ⟨rfl, rfl, rfl⟩

theorem State.readCsr_sameCounts (s : State) (a : BitVec 8) : SameCounts s (s.readCsr a) := by
  obtain ⟨v, h⟩ | h := s.readCsr_cases a
  · rw [h]; exact ⟨rfl, rfl, rfl⟩
  · rw [h]; exact ⟨rfl, rfl, rfl⟩

/-! ## A CSRW and the two counters it can write -/

theorem RwCsr.set_acceptCnt {r : RwCsr} (h : r ≠ .acceptCnt) (v : Word) (c : Csrs) :
    (r.set v c).acceptCnt = c.acceptCnt := by
  cases r with
  | acceptCnt => exact absurd rfl h
  | _ => rfl

theorem RwCsr.set_deliverCnt {r : RwCsr} (h : r ≠ .deliverCnt) (v : Word) (c : Csrs) :
    (r.set v c).deliverCnt = c.deliverCnt := by
  cases r with
  | deliverCnt => exact absurd rfl h
  | _ => rfl

/-- A CSRW to an address other than the two counters' leaves both: of the read-write registers it may hit,
each writes its own field. -/
theorem State.writeCsr_sameCounts (s : State) {a : BitVec 8} (v : Word)
    (hacc : a ≠ RwCsr.acceptCnt.addr) (hdel : a ≠ RwCsr.deliverCnt.addr) :
    SameCounts s (s.writeCsr a v) := by
  by_cases hrw : a ∈ rwCsrs.map RwCsr.addr
  · obtain ⟨r, _, rfl⟩ := List.mem_map.1 hrw
    by_cases hl : r.legal s.params v = true
    · rw [State.writeCsr_legal hl]
      exact ⟨r.set_acceptCnt (mt (congrArg RwCsr.addr) hacc) v _,
        r.set_deliverCnt (mt (congrArg RwCsr.addr) hdel) v _, r.set_rbCount v _⟩
    · rw [State.writeCsr_illegal hl]
      exact .raise s _
  · by_cases he : a = 0x06#8
    · rw [he, State.writeCsr_events]
      exact ⟨rfl, rfl, rfl⟩
    · rw [State.writeCsr_readOnly he hrw]
      exact .raise s _

/-- Among the instructions only FILL, OPEN and a CSRW of one of the two counters touch the three terms. -/
theorem effect_sameCounts (i : Instr) (s : State) :
    SameCounts s (effect i s) ∨ (∃ k, i = .fill k) ∨ (∃ f, i = .openDev f) ∨
      ∃ v, i = .csrw 0x0D#8 v ∨ i = .csrw 0x0E#8 v := by
  cases i with
  | fill k => exact .inr (.inl ⟨k, rfl⟩)
  | openDev f => exact .inr (.inr (.inl ⟨f, rfl⟩))
  | csrw a v =>
    by_cases hacc : a = 0x0D#8
    · exact .inr (.inr (.inr ⟨v, .inl (by rw [hacc])⟩))
    by_cases hdel : a = 0x0E#8
    · exact .inr (.inr (.inr ⟨v, .inr (by rw [hdel])⟩))
    exact .inl (s.writeCsr_sameCounts v hacc hdel).unlessClosed
  | close => exact .inl ⟨rfl, rfl, rfl⟩
  | tick => exact .inl (tickCommand_sameCounts s).unlessClosed
  | queue x => exact .inl (queueCommand_sameCounts _ x s).unlessClosed
  | setspeed m => exact .inl (setspeedCommand_sameCounts m s).unlessClosed
  | pause => exact .inl (SameCounts.unlessClosed ⟨rfl, rfl, rfl⟩)
  | unpause => exact .inl (SameCounts.unlessClosed ⟨rfl, rfl, rfl⟩)
  | setmute f => exact .inl (SameCounts.unlessClosed ⟨rfl, rfl, rfl⟩)
  | rehash q rate => exact .inl (rehashCommand_sameCounts q rate s).unlessClosed
  | csrr a => exact .inl (s.readCsr_sameCounts a)
  | enqraw x => exact .inl (enqrawCommand_sameCounts x s).unlessClosed

/-! ## What moves the three counters -/

/-- A number of samples split in two parts, mod 2^32. -/
theorem ofNat_add_ofNat_sub {m n : Nat} (h : m ≤ n) :
    BitVec.ofNat 32 m + BitVec.ofNat 32 (n - m) = BitVec.ofNat 32 n := by
  rw [← BitVec.ofNat_add, Nat.add_sub_cancel' h]

/-- A dequeue moves its samples from RB_COUNT to DELIVER_CNT. -/
theorem State.dequeue_conserved {s : State} (hs : s.Conserved) (k : Nat) : (s.dequeue k).Conserved := by
  rw [State.dequeue_eq]
  simp only [State.Conserved] at hs ⊢
  rw [hs, BitVec.add_assoc, ofNat_add_ofNat_sub (s.fillCount_le k), BitVec.ofNat_toNat, BitVec.setWidth_eq]

/-- A commit adds the samples it stores to ACCEPT_CNT and to RB_COUNT. -/
theorem State.commit_conserved {s : State} (hs : s.Conserved) (block : List Sample) :
    (s.commit block).Conserved := by
  rw [State.commit_eq]
  simp only [State.Conserved] at hs ⊢
  rw [hs, BitVec.add_assoc, BitVec.ofNat_add, BitVec.ofNat_toNat, BitVec.setWidth_eq]

theorem fillRequest_conserved {s : State} (hs : s.Conserved) (k : Nat) : (fillRequest k s).Conserved := by
  by_cases h : s.csr.life ≠ .active ∨ s.csr.paused = true
  · rw [fillRequest_silent h]; exact hs
  · rw [fillRequest_dequeue h]; exact s.dequeue_conserved hs k

/-- OPEN sets the three terms to 0. -/
theorem effect_openDev_conserved (f : Bool) (s : State) : (effect (.openDev f) s).Conserved := rfl

theorem State.enqueueStep_conserved {s : State} (hs : s.Conserved) : s.enqueueStep.Conserved := by
  obtain ⟨_, hidle⟩ | ⟨block, polls, _, ⟨_, hcommit⟩ | ⟨_, _, hpoll⟩ | ⟨_, _, htimeout⟩⟩ :=
    s.enqueueStep_cases
  · rwa [hidle]
  · rw [hcommit]; exact s.commit_conserved hs block
  · rw [hpoll]; exact hs
  · rw [htimeout]; exact State.commit_conserved ((SameCounts.raise s .waitTimeout).conserved hs) block

/-- Every step but a CSRW of one of the two counters keeps the conservation law. -/
theorem step_conserved {s t : State} (hs : s.Conserved) (h : step s = .next t)
    (hw : ∀ v u, s.select ≠ .run (.csrw 0x0D#8 v) u ∧ s.select ≠ .run (.csrw 0x0E#8 v) u) :
    t.Conserved := by
  obtain ⟨u, _, hu, _, rfl⟩ | ⟨i, u, hsel, hu, _, rfl⟩ | ⟨u, _, hu, _, rfl⟩ := step_cases h
  · exact State.enqueueStep_conserved (hu.sameCounts.conserved hs)
  · have hcons := hu.sameCounts.conserved hs
    obtain hc | ⟨k, rfl⟩ | ⟨f, rfl⟩ | ⟨v, rfl | rfl⟩ := effect_sameCounts i u
    · exact hc.conserved hcons
    · exact fillRequest_conserved hcons k.toNat
    · exact effect_openDev_conserved f u
    · exact absurd hsel (hw v u).1
    · exact absurd hsel (hw v u).2
  · exact (SameCounts.raise u .badCmd).conserved (hu.sameCounts.conserved hs)

/-- Each sample of a committed block is counted once, as accepted or as dropped. -/
theorem State.commit_counts (s : State) (block : List Sample) :
    ((s.commit block).csr.acceptCnt - s.csr.acceptCnt) + ((s.commit block).csr.dropCnt - s.csr.dropCnt)
      = BitVec.ofNat 32 block.length := by
  rw [State.commit_eq]
  simp only [add_sub_cancel_left]
  exact ofNat_add_ofNat_sub (s.fits_le block.length)

/-- Settles O33: FILL and the commit move equal amounts on both sides, OPEN zeroes them, and every other step
but the two excluded writes leaves the three terms. -/
theorem sampleConservation : Obligations.SampleConservation := by
  unfold Obligations.SampleConservation
  exact ⟨fun _ _ _ _ hs h hw => step_conserved hs h hw, rfl, State.commit_counts⟩

end Sys2Proof.Machine
end

section
/-! PROOFS. The ring buffer as a queue (20_memory.md R72): the occupied window across FILL, the commit, OPEN and
the steps that leave it. -/

namespace Sys2Proof.Machine

theorem State.fillCount_eq (s : State) (k : Nat) : s.fillCount k = min k s.contents.length := by
  rw [State.contents_length]
  rfl

theorem State.fits_eq (s : State) (g : Nat) : s.fits g = min g (s.params.cap - s.contents.length) := by
  rw [State.contents_length]
  rfl

/-- A dequeue takes its samples off the front of the contents. -/
theorem State.dequeue_contents_drop {s : State} (hl : s.params.Legal) (k : Nat) :
    (s.dequeue k).contents = s.contents.drop k := by
  rw [State.dequeue_contents hl, State.fillCount_eq]
  exact List.drop_eq_drop_min.symm

/-- A dequeue delivers the front of the contents, and silence for what is missing. -/
theorem State.dequeue_fillData (s : State) (k : Nat) :
    (s.dequeue k).fillData
      = s.fillData ++ s.contents.take k ++ List.replicate (k - s.contents.length) silence := by
  have hpad : k - s.fillCount k = k - s.contents.length := by rw [State.fillCount_eq]; omega
  rw [State.dequeue_eq]
  simp only [State.window_fillCount, hpad, List.append_assoc]

/-- A commit appends the samples of its block for which there is room. -/
theorem State.commit_contents_append {s : State} (hl : s.params.Legal) (h : s.RingInv) (hm : s.store.wf)
    (block : List Sample) :
    (s.commit block).contents = s.contents ++ block.take (s.params.cap - s.contents.length) := by
  rw [State.commit_contents hl h hm, State.fits_eq, min_comm, ← List.take_eq_take_min]

/-- OPEN sets RB_COUNT to 0. -/
theorem effect_openDev_contents (f : Bool) (s : State) : (effect (.openDev f) s).contents = [] := rfl

/-- An instruction other than FILL and OPEN leaves the contents. -/
theorem effect_contents {i : Instr} (s : State) (hfill : ∀ k, i ≠ .fill k) (hopen : ∀ f, i ≠ .openDev f) :
    (effect i s).contents = s.contents := by
  obtain hr | ⟨k, hk⟩ | ⟨f, hf⟩ := effect_sameRing i s
  · exact hr.contents
  · exact absurd hk (hfill k)
  · exact absurd hf (hopen f)

/-- The step on a refused word leaves the contents. -/
theorem step_refuse_contents {s t u : State} (hsel : s.select = .refuse u) (h : step s = .next t) :
    t.contents = s.contents := by
  obtain hr | ⟨_, _, hrun⟩ | ⟨_, _, hrun⟩ | ⟨_, hwait, _⟩ := step_sameRing h
  · exact hr.contents
  · simp [hsel] at hrun
  · simp [hsel] at hrun
  · simp [hsel] at hwait

/-- A poll leaves the contents. -/
theorem State.enqueueStep_contents {s : State} (h : s.enqueueStep.phase ≠ .idle) :
    s.enqueueStep.contents = s.contents := by
  obtain hr | ⟨hidle, _⟩ := s.enqueueStep_ring
  · exact hr.contents
  · exact absurd hidle h

/-- Settles O32: the dequeue takes from the front, the commit appends at the back, OPEN empties, and every other
step leaves the occupied window. -/
theorem ringBufferIsAFifo : Obligations.RingBufferIsAFifo := by
  unfold Obligations.RingBufferIsAFifo
  intro s hl h hm
  refine ⟨fun k hact hrun => ⟨_, exec_eq _ s, ?_⟩, fun k hsil => ⟨_, exec_eq _ s, ?_⟩,
    s.commit_contents_append hl h hm, fun f => ⟨_, exec_eq _ s, effect_openDev_contents f s⟩,
    fun i t hx hfill hopen => ?_, fun u t hsel hstep => step_refuse_contents hsel hstep,
    State.enqueueStep_contents⟩
  · rw [effect_fill, fillRequest_dequeue (by simp [hact, hrun])]
    exact ⟨s.dequeue_contents_drop hl k.toNat, s.dequeue_fillData k.toNat⟩
  · rw [effect_fill, fillRequest_silent hsil]
    exact ⟨rfl, rfl⟩
  · rw [exec_next_iff.1 hx]
    exact effect_contents s hfill hopen

end Sys2Proof.Machine
end

section
/-! PROOFS. The byte-wide bus (20_memory.md R64): the bytes of a unit, and the units read back. -/

namespace Sys2Proof.Machine

/-- Byte `i` of a unit is the unit divided by 256^i, mod 256. -/
theorem extractLsb'_byte {n : Nat} (x : BitVec n) (i : Nat) :
    x.extractLsb' (8 * i) 8 = BitVec.ofNat 8 (x.toNat / 256 ^ i) := by
  apply BitVec.eq_of_toNat_eq
  rw [BitVec.extractLsb'_toNat, BitVec.toNat_ofNat, Nat.shiftRight_eq_div_pow, Nat.pow_mul]

theorem wordBytes_eq (w : Word) :
    wordBytes w = (List.range 4).map fun i => BitVec.ofNat 8 (w.toNat / 256 ^ i) := by
  simp only [← extractLsb'_byte]
  rfl

theorem sampleBytes_eq (v : Sample) :
    sampleBytes v = (List.range 2).map fun i => BitVec.ofNat 8 (v.toNat / 256 ^ i) := by
  simp only [← extractLsb'_byte]
  rfl

/-- Neighbouring bytes are joined, from the top down, until they are the whole word. -/
theorem wordsOfBytes_wordBytes_append (w : Word) (bs : List Byte) :
    wordsOfBytes (wordBytes w ++ bs) = w :: wordsOfBytes bs := by
  simp only [wordBytes, List.cons_append, List.nil_append, wordsOfBytes]
  congr 1
  rw [BitVec.extractLsb'_append_extractLsb'_eq_extractLsb' (by rfl),
    BitVec.extractLsb'_append_extractLsb'_eq_extractLsb' (by rfl),
    BitVec.extractLsb'_append_extractLsb'_eq_extractLsb' (by rfl)]
  exact BitVec.extractLsb'_eq_self

theorem samplesOfBytes_sampleBytes_append (v : Sample) (bs : List Byte) :
    samplesOfBytes (sampleBytes v ++ bs) = v :: samplesOfBytes bs := by
  simp only [sampleBytes, List.cons_append, List.nil_append, samplesOfBytes]
  congr 1
  rw [BitVec.extractLsb'_append_extractLsb'_eq_extractLsb' (by rfl)]
  exact BitVec.extractLsb'_eq_self

theorem wordsOfBytes_flatMap (ws : List Word) : wordsOfBytes (ws.flatMap wordBytes) = ws := by
  induction ws with
  | nil => rfl
  | cons w ws ih => rw [List.flatMap_cons, wordsOfBytes_wordBytes_append, ih]

theorem samplesOfBytes_flatMap (xs : List Sample) : samplesOfBytes (xs.flatMap sampleBytes) = xs := by
  induction xs with
  | nil => rfl
  | cons v xs ih => rw [List.flatMap_cons, samplesOfBytes_sampleBytes_append, ih]

/-- Settles O58: each unit is put together again from its bytes, and byte `i` is its digit `i` in base 256. -/
theorem busCarriesWholeUnits : Obligations.BusCarriesWholeUnits := by
  unfold Obligations.BusCarriesWholeUnits
  refine ⟨wordsOfBytes_flatMap, samplesOfBytes_flatMap, fun w i hi => ?_, fun v i hi => ?_, fun _ => rfl⟩
  · simp [wordBytes_eq, hi]
  · simp [sampleBytes_eq, hi]

end Sys2Proof.Machine
end

section
/-! PROOFS. What the decoder refuses, and how far a command extends (30_encoding.md R86, R90, R97). -/

namespace Sys2Proof.Machine

/-! ## Reserved bits: the decoder's masks and the bit ranges of R81 to R87 -/

theorem reservedN_clear_iff (w : Word) : w &&& reservedN = 0#32 ↔ w.extractLsb' 0 28 = 0#28 :=
  and_mask_eq_zero w reservedN 0 28 (by omega) (by decide)

theorem reservedB_clear_iff (w : Word) : w &&& reservedB = 0#32 ↔ w.extractLsb' 1 27 = 0#27 :=
  and_mask_eq_zero w reservedB 1 27 (by omega) (by decide)

theorem reservedL_clear_iff (w : Word) : w &&& reservedL = 0#32 ↔ w.extractLsb' 16 12 = 0#12 :=
  and_mask_eq_zero w reservedL 16 12 (by omega) (by decide)

theorem reservedS_clear_iff (w : Word) : w &&& reservedS = 0#32 ↔ w.extractLsb' 8 20 = 0#20 :=
  and_mask_eq_zero w reservedS 8 20 (by omega) (by decide)

theorem reservedA_clear_iff (w : Word) : w &&& reservedA = 0#32 ↔ w.extractLsb' 8 20 = 0#20 :=
  and_mask_eq_zero w reservedA 8 20 (by omega) (by decide)

theorem reservedH_clear_iff (w : Word) : w &&& reservedH = 0#32 ↔ w.extractLsb' 0 4 = 0#4 :=
  and_mask_eq_zero w reservedH 0 4 (by omega) (by decide)

/-! ## What the decoder answers -/

/-- When a decoder arm refuses. -/
theorem unlessReserved_error_iff {reserved w : Word} {i : Instr} :
    (∃ e, unlessReserved reserved w i = .error e) ↔ ¬ w &&& reserved = 0#32 := by
  unfold unlessReserved
  by_cases h : w &&& reserved = 0#32 <;> simp [h]

/-- The twelve opcodes of the map and the four reserved ones are all there are (30_encoding.md R89, R93). -/
theorem reservedOpcode_of_unmapped {op : BitVec 4}
    (h : op ∉ [0x1#4, 0x2#4, 0x3#4, 0x4#4, 0x5#4, 0x6#4, 0x7#4, 0x8#4, 0x9#4, 0xA#4, 0xB#4, 0xC#4]) :
    op ∈ [0x0#4, 0xD#4, 0xE#4, 0xF#4] := by
  revert op
  decide

/-- The decoder refuses a frame exactly for R86 (1) and (2): each arm's mask is the bit range of its format,
and the last arm takes the four reserved opcodes. -/
theorem decode_error_iff (f : Frame) : (∃ e, decode f = .error e) ↔ reservedWord f.word := by
  unfold decode
  split
  case h_1 hop | h_8 hop => simp [unlessReserved_error_iff, reservedB_clear_iff, reservedWord, hop]
  case h_2 hop | h_3 hop | h_6 hop | h_7 hop =>
    simp [unlessReserved_error_iff, reservedN_clear_iff, reservedWord, hop]
  case h_4 hop | h_12 hop => simp [unlessReserved_error_iff, reservedL_clear_iff, reservedWord, hop]
  case h_5 hop => simp [unlessReserved_error_iff, reservedS_clear_iff, reservedWord, hop]
  case h_9 hop => simp [unlessReserved_error_iff, reservedH_clear_iff, reservedWord, hop]
  case h_10 hop | h_11 hop => simp [unlessReserved_error_iff, reservedA_clear_iff, reservedWord, hop]
  case h_13 =>
    have hop : opcode f.word ∈ [0x0#4, 0xD#4, 0xE#4, 0xF#4] :=
      reservedOpcode_of_unmapped (by simp_all)
    exact ⟨fun _ => .inl hop, fun _ => ⟨_, rfl⟩⟩

/-- Settles O3: the arms of the decoder one by one, and the all-zero word by its opcode. -/
theorem decodeRefusesReservedWords : Obligations.DecodeRefusesReservedWords := by
  unfold Obligations.DecodeRefusesReservedWords
  exact ⟨decode_error_iff, by decide⟩

/-- What decodes has the opcode of its instruction's row, and none of the row's reserved bits. -/
theorem row_of_decode {f : Frame} {i : Instr} (h : decode f = .ok i) :
    ∃ reserved, Laws.OpcodeBits.row i = some (opcode f.word, reserved) ∧ f.word &&& reserved = 0#32 := by
  unfold decode at h
  split at h
  case h_13 => cases h
  all_goals
    rename_i hop
    obtain ⟨hclear, rfl⟩ := unlessReserved_eq_ok.1 h
    exact ⟨_, by rw [hop]; rfl, hclear⟩

/-! ## A command's extent -/

/-- The field N as a number (30_encoding.md R83). -/
theorem fieldN_toNat (w : Word) : (fieldN w).toNat = w.toNat % 65536 := by
  simp [fieldN]

theorem trailingSamples_eq (w : Word) :
    trailingSamples w = if opcode w = 0x4#4 ∨ opcode w = 0xC#4 then w.toNat % 65536 else 0 := by
  rw [trailingSamples, fieldN_toNat]

/-- A command is incomplete while one of its trailing words is missing (30_encoding.md R90). -/
theorem takeFrame_cons_eq_none_iff {w : Word} {rest : List Word} {xs : List Sample} :
    takeFrame (w :: rest) xs = none
      ↔ rest.length < trailingWords w ∨ xs.length < trailingSamples w := by
  rw [takeFrame_cons]
  split_ifs with h
  · simp only [false_iff]
    omega
  · simp only [true_iff]
    omega

/-- A complete command: its trailing words are there, and the frame and what it leaves are these. -/
theorem takeFrame_cons_eq_some_iff {w : Word} {rest : List Word} {xs : List Sample} {t : Framed} :
    takeFrame (w :: rest) xs = some t ↔
      (trailingWords w ≤ rest.length ∧ trailingSamples w ≤ xs.length) ∧
        t =
          { frame :=
              { word := w
                data := if trailingWords w = 0 then 0#32 else rest.headD 0#32
                payload := xs.take (trailingSamples w) }
            cmdRest := rest.drop (trailingWords w)
            sampleRest := xs.drop (trailingSamples w) } := by
  rw [takeFrame_cons]
  split_ifs with h <;> simp [h, eq_comm]

/-- A command's data word is the word behind its own, where it has one. -/
theorem headD_of_trailingWords {w : Word} {rest : List Word} (h : trailingWords w ≤ rest.length)
    (hd : trailingWords w = 1) : rest.head? = some (rest.headD 0#32) := by
  cases rest with
  | nil => simp [hd] at h
  | cons v rest => rfl

/-- What arrives behind a complete command stays behind it. -/
theorem takeFrame_append {w : Word} {rest : List Word} {xs : List Sample} {t : Framed}
    (h : takeFrame (w :: rest) xs = some t) (cs : List Word) (ys : List Sample) :
    takeFrame (w :: rest ++ cs) (xs ++ ys)
      = some { frame := t.frame, cmdRest := t.cmdRest ++ cs, sampleRest := t.sampleRest ++ ys } := by
  obtain ⟨⟨hw, hs⟩, rfl⟩ := takeFrame_cons_eq_some_iff.1 h
  have hw' : trailingWords w ≤ (rest ++ cs).length := by rw [List.length_append]; omega
  have hs' : trailingSamples w ≤ (xs ++ ys).length := by rw [List.length_append]; omega
  have hdata : trailingWords w ≠ 0 → (rest ++ cs).headD 0#32 = rest.headD 0#32 := by
    intro h0
    cases rest with
    | nil => exact absurd (Nat.le_zero.1 hw) h0
    | cons v rest => rfl
  rw [List.cons_append, takeFrame_cons, if_pos ⟨hw', hs'⟩, List.drop_append_of_le_length hw,
    List.drop_append_of_le_length hs, List.take_append_of_le_length hs]
  split_ifs with h0
  · rfl
  · rw [hdata h0]

/-- Settles O4: when a frame is complete, what it holds, and that it stays when more arrives. -/
theorem framingTakesTheWholeCommand : Obligations.FramingTakesTheWholeCommand := by
  unfold Obligations.FramingTakesTheWholeCommand
  intro w rest xs d n
  have hn : n = trailingSamples w := (trailingSamples_eq w).symm
  rw [hn, show d = trailingWords w from rfl]
  refine ⟨takeFrame_cons_eq_none_iff, fun t ht => ?_⟩
  obtain ⟨⟨hw, _⟩, heq⟩ := takeFrame_cons_eq_some_iff.1 ht
  refine ⟨by rw [heq], by rw [heq], by rw [heq], by rw [heq], fun hd => ?_, takeFrame_append ht⟩
  rw [headD_of_trailingWords hw hd, heq]
  simp [hd]

end Sys2Proof.Machine
end

section
/-! PROOFS. Lifecycle legality (30_encoding.md R86, R92): what a command that CLOSED does not allow does, and
that no other instruction raises BAD_CMD, by the events each instruction can raise (60_exceptions.md R213). -/

namespace Sys2Proof.Machine

/-! ## Refused commands -/

/-- BAD_CMD is bit 3 of EVENTS (10_state.md R28). -/
theorem State.raise_badCmd (s : State) : s.raise .badCmd = s.withEvents 0x008#12 := rfl

/-- A command that CLOSED does not allow goes through the lifecycle check. -/
theorem effect_guarded {i : Instr} (s : State) (ha : Instr.allowedInClosed i = false) :
    ∃ t, effect i s = s.unlessClosed t := by
  cases i with
  | openDev | close | csrr | fill => cases ha
  | _ => exact ⟨_, rfl⟩

/-- In CLOSED such a command raises BAD_CMD and does nothing else (30_encoding.md R92). -/
theorem effect_refused {i : Instr} {s : State} (hc : s.csr.life = .closed)
    (ha : Instr.allowedInClosed i = false) : effect i s = s.raise .badCmd := by
  obtain ⟨t, h⟩ := effect_guarded s ha
  rw [h, State.unlessClosed_of_closed s t hc]

/-! ## The events an operation can raise -/

/-- Every bit of EVENTS that is set in `t` was set in `s` or is one of `may`. -/
def RaisesOnly (may : BitVec 12) (s t : State) : Prop :=
  ∀ n, t.csr.events.getLsbD n = true → s.csr.events.getLsbD n = true ∨ may.getLsbD n = true

theorem Event.bit_getLsbD {e : Event} {n : Nat} (h : e.bit.getLsbD n = true) : n = e.code := by
  simp only [Event.bit, BitVec.getLsbD_shiftLeft, BitVec.getLsbD_one, Bool.and_eq_true, Bool.not_eq_eq_eq_not,
    Bool.not_true, decide_eq_true_eq, decide_eq_false_iff_not] at h
  omega

/-- An event that cannot be raised is not among the new ones. -/
theorem RaisesOnly.not_new {may : BitVec 12} {s t : State} {e : Event} (h : RaisesOnly may s t)
    (he : may.getLsbD e.code = false) : newEvents s t &&& e.bit = 0#12 := by
  apply BitVec.eq_of_getLsbD_eq
  intro n _
  by_contra hnew
  simp only [newEvents, BitVec.getLsbD_and, BitVec.getLsbD_zero, Bool.not_eq_false, Bool.and_eq_true]
    at hnew
  obtain ⟨⟨ht, hs⟩, hbit⟩ := hnew
  obtain rfl := Event.bit_getLsbD hbit
  obtain hs' | hmay := h _ ht
  · simp [hs'] at hs
  · simp [he] at hmay

theorem RaisesOnly.of_events_eq {may : BitVec 12} {s t : State} (h : t.csr.events = s.csr.events) :
    RaisesOnly may s t := fun _ hn => .inl (h ▸ hn)

theorem RaisesOnly.raise {may : BitVec 12} {s t : State} {e : Event} (h : RaisesOnly may s t)
    (he : may.getLsbD e.code = true) : RaisesOnly may s (t.raise e) := by
  intro n hn
  rw [State.raise_events, BitVec.getLsbD_or, Bool.or_eq_true] at hn
  obtain hn | hn := hn
  · exact h n hn
  · rw [Event.bit_getLsbD hn]
    exact .inr he

theorem RaisesOnly.raiseIf {may : BitVec 12} {s t : State} {b : Bool} {e : Event} (h : RaisesOnly may s t)
    (he : may.getLsbD e.code = true) : RaisesOnly may s (t.raiseIf b e) := by
  cases b
  · exact h
  · exact h.raise he

/-! ## The events each command can raise (60_exceptions.md R213) -/

theorem tickCommand_raises (s : State) : RaisesOnly 0x0C0#12 s (tickCommand s) :=
  ((RaisesOnly.of_events_eq rfl).raiseIf rfl).raiseIf rfl

theorem queueSnapshot_raises (conv : Converter) (x : List Sample) (s : State) :
    RaisesOnly 0xB00#12 s (queueSnapshot conv x s) :=
  (((RaisesOnly.of_events_eq rfl).raiseIf rfl).raiseIf rfl).raiseIf rfl

/-- A rejected QUEUE raises QUEUE_REJ alone, an accepted one what the snapshot step raises. -/
theorem queueCommand_raises (conv : Converter) (x : List Sample) (s : State) :
    RaisesOnly (if s.params.inMax < x.length then 0x020#12 else 0xB00#12) s (queueCommand conv x s) := by
  unfold queueCommand
  split_ifs
  · exact .of_events_eq rfl
  · exact (RaisesOnly.of_events_eq rfl).raise rfl
  · exact .of_events_eq rfl
  · exact .of_events_eq rfl
  · exact queueSnapshot_raises conv x s

theorem enqrawCommand_raises (x : List Sample) (s : State) :
    RaisesOnly (if s.params.outMax < x.length then 0x020#12 else 0x000#12) s (enqrawCommand x s) := by
  unfold enqrawCommand
  split_ifs
  · exact .of_events_eq rfl
  · exact (RaisesOnly.of_events_eq rfl).raise rfl
  · exact .of_events_eq rfl
  · exact .of_events_eq rfl
  · exact .of_events_eq rfl

theorem setspeedCommand_raises (m : BitVec 8) (s : State) :
    RaisesOnly 0x010#12 s (setspeedCommand m s) := by
  unfold setspeedCommand
  split_ifs
  · exact (RaisesOnly.of_events_eq rfl).raise rfl
  · exact .of_events_eq rfl

theorem rehashCommand_raises (q : BitVec 4) (rate : BitVec 20) (s : State) :
    RaisesOnly 0x004#12 s (rehashCommand q rate s) := by
  unfold rehashCommand
  split_ifs
  · exact (RaisesOnly.of_events_eq rfl).raise rfl
  · exact .of_events_eq rfl

theorem State.writeCsr_raises (s : State) (a : BitVec 8) (v : Word) :
    RaisesOnly 0x010#12 s (s.writeCsr a v) := by
  obtain h | ⟨_, h⟩ | ⟨r, h⟩ := s.writeCsr_cases a v
  · rw [h]; exact (RaisesOnly.of_events_eq rfl).raise rfl
  · rw [h]
    intro n hn
    simp only [clearEvents, BitVec.getLsbD_and, Bool.and_eq_true] at hn
    exact .inl hn.1
  · rw [h]; exact .of_events_eq (r.set_events v s.csr)

theorem State.readCsr_raises (s : State) (a : BitVec 8) : RaisesOnly 0x010#12 s (s.readCsr a) := by
  obtain ⟨v, h⟩ | h := s.readCsr_cases a
  · rw [h]; exact .of_events_eq rfl
  · rw [h]; exact (RaisesOnly.of_events_eq rfl).raise rfl

theorem fillRequest_raises (k : Nat) (s : State) : RaisesOnly 0x001#12 s (fillRequest k s) := by
  unfold fillRequest
  split_ifs
  · exact .of_events_eq rfl
  · exact (RaisesOnly.of_events_eq rfl).raiseIf rfl

/-- The events an instruction can raise where the lifecycle allows it (60_exceptions.md R213). -/
def eventsOf (p : Params) (i : Instr) : BitVec 12 :=
  match i with
  | .openDev _ => 0x000#12
  | .close => 0x000#12
  | .tick => 0x0C0#12
  | .queue x => if p.inMax < x.length then 0x020#12 else 0xB00#12
  | .setspeed _ => 0x010#12
  | .pause => 0x000#12
  | .unpause => 0x000#12
  | .setmute _ => 0x000#12
  | .rehash _ _ => 0x004#12
  | .csrw _ _ => 0x010#12
  | .csrr _ => 0x010#12
  | .enqraw x => if p.outMax < x.length then 0x020#12 else 0x000#12
  | .fill _ => 0x001#12

/-- BAD_CMD is none of them. -/
theorem eventsOf_badCmd (p : Params) (i : Instr) :
    (eventsOf p i).getLsbD Event.badCmd.code = false := by
  cases i with
  | queue x => simp only [eventsOf]; split_ifs <;> rfl
  | enqraw x => simp only [eventsOf]; split_ifs <;> rfl
  | _ => simp only [eventsOf]; rfl

/-- An instruction that its lifecycle state allows raises only its own events. -/
theorem effect_raises {i : Instr} {s : State}
    (h : s.csr.life ≠ .closed ∨ Instr.allowedInClosed i = true) :
    RaisesOnly (eventsOf s.params i) s (effect i s) := by
  have guarded {may : BitVec 12} {t : State} (hopen : Instr.allowedInClosed i = false)
      (ht : RaisesOnly may s t) : RaisesOnly may s (s.unlessClosed t) := by
    have hlife : s.csr.life ≠ .closed := h.resolve_right (by simp [hopen])
    rwa [State.unlessClosed_of_open s t hlife]
  cases i with
  | openDev f => exact fun n hn => by simp [effect_openDev, Csrs.reset] at hn
  | close => exact .of_events_eq rfl
  | csrr a => exact s.readCsr_raises a
  | fill k => exact fillRequest_raises k.toNat s
  | tick => exact guarded rfl (tickCommand_raises s)
  | queue x => exact guarded rfl (queueCommand_raises Config.src x s)
  | setspeed m => exact guarded rfl (setspeedCommand_raises m s)
  | pause => exact guarded rfl (.of_events_eq rfl)
  | unpause => exact guarded rfl (.of_events_eq rfl)
  | setmute f => exact guarded rfl (.of_events_eq rfl)
  | rehash q rate => exact guarded rfl (rehashCommand_raises q rate s)
  | csrw a v => exact guarded rfl (s.writeCsr_raises a v)
  | enqraw x => exact guarded rfl (enqrawCommand_raises x s)

/-- Settles O15: a command that is not allowed is refused, and BAD_CMD is no event of any instruction. -/
theorem lifecycleLegality : Obligations.LifecycleLegality := by
  unfold Obligations.LifecycleLegality
  intro i s
  refine ⟨fun hc ha => ?_, fun h => ⟨effect i s, exec_eq i s, ?_⟩⟩
  · rw [exec_eq, effect_refused hc ha, State.raise_badCmd]
  · exact (effect_raises h).not_new (eventsOf_badCmd s.params i)

/-- A decoded command whose opcode is not one of the three that CLOSED allows is not allowed there. -/
theorem not_allowedInClosed_of_decode {f : Frame} {i : Instr} (h : decode f = .ok i)
    (hop : opcode f.word ∉ [0x1#4, 0x2#4, 0xB#4]) : Instr.allowedInClosed i = false := by
  obtain ⟨reserved, hrow, _⟩ := row_of_decode h
  cases i with
  | openDev | close | csrr =>
    simp only [Laws.OpcodeBits.row, Option.some.injEq, Prod.mk.injEq] at hrow
    simp [← hrow.1] at hop
  | fill => cases hrow
  | _ => rfl

theorem State.producerMove_refuse {s : State} {t : Framed} {e : DecodeError} (hp : s.phase = .idle)
    (ht : takeFrame s.cmdIn s.sampleIn = some t) (hd : decode t.frame = .error e) :
    s.producerMove = .refuse { s with cmdIn := t.cmdRest, sampleIn := t.sampleRest } := by
  simp only [State.producerMove, hp, ht, hd]

/-- Settles O11: the decoder refuses the word, or the command it decodes is refused in CLOSED. -/
theorem refusedWordRaisesBadCmdAlone : Obligations.RefusedWordRaisesBadCmdAlone := by
  unfold Obligations.RefusedWordRaisesBadCmdAlone
  intro s t hp ht hrefused
  cases hd : decode t.frame with
  | error e =>
    rw [producerStep, State.producerMove_refuse hp ht hd]
    rfl
  | ok i =>
    have hnot : ¬ reservedWord t.frame.word := fun hr => by
      obtain ⟨e, he⟩ := (decode_error_iff t.frame).2 hr
      rw [hd] at he
      cases he
    obtain ⟨hc, hop⟩ := hrefused.resolve_left hnot
    have heffect := effect_refused (s := { s with cmdIn := t.cmdRest, sampleIn := t.sampleRest }) hc
      (not_allowedInClosed_of_decode hd hop)
    rw [producerStep, State.producerMove_run hp ht hd, Move.perform, exec_eq, heffect, State.raise_badCmd]

end Sys2Proof.Machine
end

section
/-! PROOFS. The assembler (30_encoding.md R95, R96): which operands it takes, and what it expands. -/

namespace Sys2Proof.Machine

/-! ## Payload operands -/

/-- A payload operand is taken exactly when its count fits the field N, there are that many values, and each
is an s16. -/
theorem payloadOperand_eq (n : Nat) (x : List Int) :
    payloadOperand n x =
      if n < 65536 ∧ x.length = n ∧ ∀ v ∈ x, -32768 ≤ v ∧ v ≤ 32767 then some (x.map (BitVec.ofInt 16))
      else none := by
  simp [payloadOperand]

theorem payloadOperand_fits {n : Nat} {x : List Int} {p : List Sample} (h : payloadOperand n x = some p) :
    PayloadFits p := by
  rw [payloadOperand_eq, Option.ite_none_right_eq_some] at h
  obtain ⟨⟨hn, hx, _⟩, hp⟩ := h
  obtain rfl := Option.some.inj hp
  simp only [PayloadFits, List.length_map]
  omega

/-! ## What is assembled is well formed -/

/-- An operand carried over into an instruction that it makes well formed. -/
theorem wellFormed_of_map {α : Type} {o : Option α} {f : α → Instr} {i : Instr}
    (hf : ∀ a, o = some a → (f a).WellFormed) (h : o.map f = some i) : i.WellFormed := by
  obtain ⟨a, ha, rfl⟩ := Option.map_eq_some_iff.1 h
  exact hf a ha

/-- Only a payload can be too long for its field, and its operand is then refused. -/
theorem assemble_wellFormed {line : AsmLine} {i : Instr} (h : assemble line = some i) : i.WellFormed := by
  cases line with
  | queue | enqraw => exact wellFormed_of_map (fun _ => payloadOperand_fits) h
  | rehash | csrw =>
    obtain ⟨_, _, h⟩ := Option.bind_eq_some_iff.1 h
    exact wellFormed_of_map (fun _ _ => True.intro) h
  | openDev | setmute | setspeed | csrr | fill | setFrametime | setRefresh | setFrameMult | setDecim =>
    exact wellFormed_of_map (fun _ _ => True.intro) h
  | queue0 =>
    obtain rfl := Option.some.inj h
    exact Nat.zero_lt_succ _
  | close | tick | pause | unpause | mute | unmute | clrEvents =>
    obtain rfl := Option.some.inj h
    exact True.intro

/-! ## The operands of each mnemonic -/

theorem flagOperand_map {α : Type} (v : Nat) (g : Bool → α) :
    (flagOperand v).map g = if v < 2 then some (g (decide (v = 1))) else none := by
  unfold flagOperand
  split_ifs <;> rfl

theorem operand_map {α : Type} (n v : Nat) (g : BitVec n → α) :
    (operand n v).map g = if v < 2 ^ n then some (g (BitVec.ofNat n v)) else none := by
  unfold operand
  split_ifs <;> rfl

/-- Two numeric operands are both taken or the line is refused. -/
theorem operand_bind_map {α : Type} (m n u v : Nat) (g : BitVec m → BitVec n → α) :
    ((operand m u).bind fun a => (operand n v).map (g a)) =
      if u < 2 ^ m ∧ v < 2 ^ n then some (g (BitVec.ofNat m u) (BitVec.ofNat n v)) else none := by
  unfold operand
  by_cases hu : u < 2 ^ m <;> by_cases hv : v < 2 ^ n <;> simp [hu, hv]

theorem payloadOperand_map {α : Type} (n : Nat) (x : List Int) (g : List Sample → α) :
    (payloadOperand n x).map g =
      if n < 65536 ∧ x.length = n ∧ ∀ v ∈ x, -32768 ≤ v ∧ v ≤ 32767 then
        some (g (x.map (BitVec.ofInt 16)))
      else none := by
  rw [payloadOperand_eq]
  split_ifs <;> rfl

/-- Settles O59: the operands of each mnemonic, then the pseudo-instructions by their expansions. -/
theorem assemblerOperandsAndPseudoInstructions :
    Obligations.AssemblerOperandsAndPseudoInstructions := by
  unfold Obligations.AssemblerOperandsAndPseudoInstructions
  refine ⟨fun _ _ => assemble_wellFormed, fun f => flagOperand_map f _, fun f => flagOperand_map f _,
    rfl, rfl, rfl, rfl, fun k => operand_map 16 k _, fun m => operand_map 8 m _,
    fun q rate => operand_bind_map 4 20 q rate _, fun a v => operand_bind_map 8 32 a v _,
    fun a => operand_map 8 a _, ?payload, rfl, rfl, fun _ => rfl, fun _ => rfl, rfl,
    fun _ => rfl, fun _ => rfl, rfl, rfl⟩
  case payload =>
    intro n x fits
    have hqueue := payloadOperand_map n x Instr.queue
    have henqraw := payloadOperand_map n x Instr.enqraw
    exact ⟨fun hfits => ⟨hqueue.trans (if_pos hfits), henqraw.trans (if_pos hfits)⟩,
      fun hfits => ⟨hqueue.trans (if_neg hfits), henqraw.trans (if_neg hfits)⟩⟩

end Sys2Proof.Machine
end

section
/-! PROOFS. The ring buffer's commands, law by law (40_ring_buffer.md): FILL and its onset of silence (R112 to
R114), the wait step and the commit (R115, R117), ENQRAW (R118). -/

namespace Sys2Proof.Machine

/-! ## A register and what an operation adds to it or takes from it -/

theorem ofNat_toNat_add {w : Nat} (x : BitVec w) (n : Nat) :
    BitVec.ofNat w (x.toNat + n) = x + BitVec.ofNat w n := by
  rw [BitVec.ofNat_add, BitVec.ofNat_toNat, BitVec.setWidth_eq]

theorem ofNat_toNat_sub {w n : Nat} {x : BitVec w} (h : n ≤ x.toNat) :
    BitVec.ofNat w (x.toNat - n) = x - BitVec.ofNat w n := by
  rw [← BitVec.ofNat_sub_ofNat_of_le _ _ (by omega) h, BitVec.ofNat_toNat, BitVec.setWidth_eq]

/-- EVENTS behind a raise under a condition. -/
theorem or_ite_bit (c : Prop) [Decidable c] (events bit : BitVec 12) :
    events ||| (if c then bit else 0#12) = if c then events ||| bit else events := by
  split_ifs
  · rfl
  · exact BitVec.or_zero

/-- A counter that moves by what `a` leaves of `g` stands still when nothing is left. -/
theorem add_ofNat_sub_eq_ite (cnt : Word) {a g : Nat} (h : a ≤ g) :
    cnt + BitVec.ofNat 32 (g - a) = if a < g then cnt + BitVec.ofNat 32 (g - a) else cnt := by
  split_ifs with hlt
  · rfl
  · rw [show g - a = 0 by omega]
    exact BitVec.add_zero cnt

/-! ## FILL (40_ring_buffer.md R112, R113) -/

theorem State.fillCount_le_request (s : State) (k : Nat) : s.fillCount k ≤ k := Nat.min_le_left _ _

/-- Settles O24: the two cases of a FILL, the dequeue's RB_COUNT and EVENTS brought to the words of R112. -/
theorem fillCommand : Obligations.FillCommand := by
  unfold Obligations.FillCommand
  intro s k _ c r stored
  rw [exec_eq, effect_fill]
  by_cases h : c.life = .active ∧ c.paused = false
  · rw [if_pos h, fillRequest_dequeue (by simpa [c] using h), State.dequeue_eq,
      ofNat_toNat_sub (s.fillCount_le k.toNat), or_ite_bit, ← List.append_assoc]
    rfl
  · rw [if_neg h, fillRequest_silent (by simpa [c, imp_iff_not_or] using h)]
    rfl

/-- What a FILL delivers is as long as its request asks for (40_ring_buffer.md R113). -/
theorem fillRequest_delivers (k : Nat) (s : State) :
    ∃ xs, (fillRequest k s).fillData = s.fillData ++ xs ∧ xs.length = k := by
  by_cases h : s.csr.life ≠ .active ∨ s.csr.paused = true
  · rw [fillRequest_silent h]
    exact ⟨_, rfl, List.length_replicate⟩
  · rw [fillRequest_dequeue h, State.dequeue_eq]
    refine ⟨_, rfl, ?_⟩
    rw [List.length_append, State.window_length, List.length_replicate,
      Nat.add_sub_cancel' (s.fillCount_le_request k)]

/-- Settles O25: FILL completes, and its delivery has the length asked for. -/
theorem exactFill : Obligations.ExactFill := by
  unfold Obligations.ExactFill
  intro s k
  obtain ⟨xs, hdata, hlen⟩ := fillRequest_delivers k.toNat s
  exact ⟨_, xs, exec_eq _ s, hdata, hlen⟩

/-! ## A run of FILLs (40_ring_buffer.md R114) -/

/-- The requests `reqs` stand on the fill port of an ACTIVE, unpaused machine whose producer is silent. -/
structure State.Draining (s : State) (reqs : List Length) : Prop where
  legal : s.params.Legal
  silent : s.producerSilent
  active : s.csr.life = .active
  unpaused : s.csr.paused = false
  requests : s.fillReq = reqs

/-- A producer that is IDLE with nothing on its command port has no step (60_exceptions.md R219). -/
theorem State.producerReady_of_silent {s : State} (h : s.producerSilent) : s.producerReady = false := by
  obtain ⟨hphase, hcmd⟩ := h
  simp [State.producerReady, hphase, hcmd, takeFrame]

@[simp] theorem State.dequeue_phase (s : State) (k : Nat) : (s.dequeue k).phase = s.phase := by
  rw [State.dequeue_eq]

@[simp] theorem State.dequeue_cmdIn (s : State) (k : Nat) : (s.dequeue k).cmdIn = s.cmdIn := by
  rw [State.dequeue_eq]

@[simp] theorem State.dequeue_fillReq (s : State) (k : Nat) : (s.dequeue k).fillReq = s.fillReq := by
  rw [State.dequeue_eq]

/-- UNDERRUN_CNT counts the FILLs that find fewer samples than they ask for. -/
theorem State.dequeue_underrunCnt (s : State) (k : Nat) :
    (s.dequeue k).csr.underrunCnt
      = if s.contents.length < k then s.csr.underrunCnt + 1#32 else s.csr.underrunCnt := by
  have hshort : s.fillCount k < k ↔ s.contents.length < k := by rw [State.fillCount_eq]; omega
  rw [State.dequeue_eq]
  simp only [hshort]

/-- The step of a draining machine is the dequeue of its first request. -/
theorem State.Draining.step_eq {s : State} {k : Length} {ks : List Length} (h : s.Draining (k :: ks)) :
    step s = .next (({ s with fillReq := ks } : State).dequeue k.toNat) := by
  have hc : s.consumerReady = true :=
    s.consumerReady_iff.2 (by rw [h.requests]; exact List.cons_ne_nil _ _)
  rw [step, State.select_of_producer_silent hc (State.producerReady_of_silent h.silent),
    State.consumerMove_run h.requests, Move.perform, exec_eq, effect_fill,
    fillRequest_dequeue (by simp [h.active, h.unpaused])]

/-- One FILL of a draining machine: it takes from the front of the contents and goes on draining. -/
theorem State.Draining.fill {s : State} {k : Length} {ks : List Length} (h : s.Draining (k :: ks)) :
    ∃ t, step s = .next t ∧ t.Draining ks ∧ t.contents = s.contents.drop k.toNat ∧
      t.fillData = s.fillData ++ s.contents.take k.toNat
        ++ List.replicate (k.toNat - s.contents.length) silence ∧
      t.csr.underrunCnt
        = if s.contents.length < k.toNat then s.csr.underrunCnt + 1#32 else s.csr.underrunCnt := by
  have hmode := (State.dequeue_frame { s with fillReq := ks } k.toNat).mode
  refine ⟨_, h.step_eq, ?_, State.dequeue_contents_drop (s := { s with fillReq := ks }) h.legal k.toNat,
    State.dequeue_fillData _ _, State.dequeue_underrunCnt _ _⟩
  exact
    { legal := by rw [State.dequeue_params]; exact h.legal
      silent := by
        rw [State.producerSilent, State.dequeue_phase, State.dequeue_cmdIn]
        exact h.silent
      active := hmode.life.trans h.active
      unpaused := hmode.paused.trans h.unpaused
      requests := State.dequeue_fillReq _ _ }

/-- FILLs of `k` that the contents can serve in full deliver stored samples only. -/
theorem State.Draining.fills {s : State} {n : Nat} {k : Length} {reqs : List Length}
    (h : s.Draining (List.replicate n k ++ reqs)) (hn : n * k.toNat ≤ s.contents.length) :
    ∃ t, runSteps n s = .next t ∧ t.Draining reqs ∧ t.contents = s.contents.drop (n * k.toNat) ∧
      t.fillData = s.fillData ++ s.contents.take (n * k.toNat) ∧
      t.csr.underrunCnt = s.csr.underrunCnt := by
  induction n generalizing s with
  | zero => exact ⟨s, rfl, h, by simp, by simp, rfl⟩
  | succ n ih =>
    rw [Nat.succ_mul] at hn ⊢
    obtain ⟨u, hstep, hu, hcontents, hdata, hcnt⟩ := h.fill
    rw [if_neg (by omega)] at hcnt
    rw [Nat.sub_eq_zero_of_le (by omega), List.replicate_zero, List.append_nil] at hdata
    obtain ⟨t, hrun, ht, hcontents', hdata', hcnt'⟩ :=
      ih hu (by rw [hcontents, List.length_drop]; omega)
    refine ⟨t, (runSteps_succ hstep).trans hrun, ht, ?_, ?_, hcnt'.trans hcnt⟩
    · rw [hcontents', hcontents, List.drop_drop, Nat.add_comm]
    · rw [hdata', hdata, hcontents, List.append_assoc, ← List.take_add, Nat.add_comm]

/-- Settles O26: the FILLs that are served in full, then the one that meets the remainder. -/
theorem underrunOnset : Obligations.UnderrunOnset := by
  unfold Obligations.UnderrunOnset
  intro s k more hk hl _ hsilent hact hrun hreq n m
  have hdraining : s.Draining (List.replicate n k ++ k :: more) :=
    ⟨hl, hsilent, hact, hrun, by rw [hreq, List.replicate_succ', List.append_assoc]; rfl⟩
  have hdiv : n * k.toNat + m = s.contents.length := by
    rw [State.contents_length, Nat.mul_comm]
    exact Nat.div_add_mod _ _
  have hm : m < k.toNat := Nat.mod_lt _ hk
  have hrest : (s.contents.drop (n * k.toNat)).length = m := by rw [List.length_drop]; omega
  obtain ⟨t, hsteps, ht, hcontents, hdata, hcnt⟩ := hdraining.fills (by omega)
  obtain ⟨u, hstep, _, hempty, hpadded, hcnt'⟩ := ht.fill
  rw [hcontents, hrest] at hpadded hcnt'
  rw [hcontents, List.drop_eq_nil_of_le (by omega)] at hempty
  have hcount : u.csr.rbCount.toNat = 0 := by rw [← State.contents_length, hempty, List.length_nil]
  refine ⟨t, u, hsteps, hstep, hdata, hcnt, ?_, hrest, BitVec.eq_of_toNat_eq hcount, ?_⟩
  · rw [hpadded, List.take_of_length_le (by omega)]
  · rw [hcnt', if_pos hm, hcnt]

/-! ## The wait step (40_ring_buffer.md R115) -/

theorem State.producerMove_wait {s : State} {block : List Sample} {polls : Nat}
    (h : s.phase = .enqWait block polls) : s.producerMove = .wait s := by
  simp only [State.producerMove, h]

/-- When a block of `g` samples is released. -/
theorem State.hold_eq_false_iff (s : State) (g : Nat) :
    s.hold g = false ↔ s.csr.rbCount.toNat ≤ s.limit - min g s.limit := by
  rw [Bool.eq_false_iff, ne_eq, State.hold_iff, not_lt]

/-- Settles O27: released or held, and held with a poll left or with none. -/
theorem enqueueWaitStep : Obligations.EnqueueWaitStep := by
  unfold Obligations.EnqueueWaitStep
  intro s block polls hphase limit g
  rw [producerStep, State.producerMove_wait hphase, Move.perform, State.enqueueStep_enqWait hphase]
  by_cases hfree : s.csr.rbCount.toNat ≤ limit - min g limit
  · have hhold : s.hold block.length = false := (s.hold_eq_false_iff g).2 hfree
    rw [if_neg (by simp [hhold]), if_pos hfree]
  · have hhold : s.hold block.length = true := (s.hold_iff g).2 (not_le.1 hfree)
    rw [if_pos hhold, if_neg hfree]
    rfl

/-! ## The commit (40_ring_buffer.md R117) -/

/-- What fits of a block stands behind RB_END after its commit. -/
theorem State.commit_read_stored {s : State} (hm : s.store.wf) {block : List Sample} {i : Nat}
    (hi : i < s.fits block.length) :
    (s.commit block).store.read ((s.csr.rbEnd.toNat + i) % s.params.cap) = block.getD i silence := by
  have hfree := s.fits_le_free block.length
  have hlen : (block.take (s.fits block.length)).length = s.fits block.length :=
    List.length_take_of_le (s.fits_le block.length)
  rw [State.commit_store, Store.read_writeBlock_mem _ _ _ _ _ hm (by omega) (by omega),
    List.getD_eq_getElem?_getD, List.getElem?_take_of_lt hi, ← List.getD_eq_getElem?_getD]

/-- A commit leaves the elements of the store that it does not write. -/
theorem State.commit_read_other {s : State} (hm : s.store.wf) {block : List Sample} {j : Nat}
    (hj : ∀ i, i < s.fits block.length → j ≠ (s.csr.rbEnd.toNat + i) % s.params.cap) :
    (s.commit block).store.read j = s.store.read j := by
  rw [State.commit_store]
  refine Store.read_writeBlock_other _ _ _ _ _ hm fun i hi => hj i ?_
  exact hi.trans_le (List.length_take_le _ _)

/-- Settles O28: the block write at and off the written indices, the record, and RB_COUNT as a number. -/
theorem enqueueCommit : Obligations.EnqueueCommit := by
  unfold Obligations.EnqueueCommit
  intro s block hl h hm cap c g a t
  have record := s.commit_eq block
  rw [ofNat_toNat_add, or_ite_bit, add_ofNat_sub_eq_ite _ (s.fits_le block.length), ← State.commit_store]
    at record
  exact ⟨fun _ => State.commit_read_stored hm, fun _ => State.commit_read_other hm, record,
    s.commit_rbCount_toNat block hl h.count_le⟩

/-! ## ENQRAW (40_ring_buffer.md R118) -/

/-- ENQRAW where the lifecycle allows it, in the words of R118 (QUEUE_REJ is bit 5 of EVENTS). -/
theorem enqrawCommand_eq (x : List Sample) (s : State) :
    enqrawCommand x s =
      if s.csr.life = .nullsink then s
      else if s.params.outMax < x.length then s.withEvents 0x020#12
      else if x = [] then s
      else { s with phase := .enqWait x 0 } := by
  simp only [enqrawCommand, List.isEmpty_iff]
  rfl

/-- Settles O29: the checks of R118 in their order, and the refusal in CLOSED. In `Settled`, since the model's own
`enqrawCommand` has the name in `Machine`. -/
theorem Settled.enqrawCommand : Obligations.EnqrawCommand := by
  unfold Obligations.EnqrawCommand
  intro s x
  refine ⟨fun hopen => ?_, fun hclosed => ?_⟩
  · rw [exec_eq, effect_enqraw, State.unlessClosed_of_open _ _ hopen, enqrawCommand_eq]
  · rw [exec_eq, effect_refused hclosed rfl, State.raise_badCmd]

end Sys2Proof.Machine
end

section
/-! PROOFS. The sample conversions over the rational value of a binary32 (41_resampler.md R137, R139). -/

namespace Sys2Proof.Machine

/-! ## Rounding to nearest, ties to even -/

/-- `r` is an integer nearest to `v`, and the even one when two are equally near (R139). -/
def NearestEven (r : ℤ) (v : ℚ) : Prop :=
  |(r : ℚ) - v| ≤ 1 / 2 ∧ (|(r : ℚ) - v| = 1 / 2 → 2 ∣ r)

theorem NearestEven.of_eq {r : ℤ} {v : ℚ} (h : v = r) : NearestEven r v := by
  simp [NearestEven, h]

theorem NearestEven.neg {r : ℤ} {v : ℚ} (h : NearestEven r v) : NearestEven (-r) (-v) := by
  have hd : |((-r : ℤ) : ℚ) - -v| = |(r : ℚ) - v| := by
    rw [← abs_neg]; push_cast; ring_nf
  simpa only [NearestEven, hd, dvd_neg] using h

/-- An integer is its own nearest one. -/
theorem NearestEven.eq_of_int {r n : ℤ} (h : NearestEven r n) : r = n := by
  have hlt : |r - n| < 1 := by
    have h1 := h.1
    rw [← Int.cast_sub, ← Int.cast_abs] at h1
    exact_mod_cast lt_of_le_of_lt h1 (by norm_num : (1 / 2 : ℚ) < 1)
  exact sub_eq_zero.1 (Int.abs_lt_one_iff.1 hlt)

/-- Nearness to a fraction, by the distance of the numerators. -/
theorem nearestEven_div {r m p : ℤ} (hp : 0 < p) (hnear : 2 * |r * p - m| ≤ p)
    (heven : 2 * |r * p - m| = p → 2 ∣ r) : NearestEven r ((m : ℚ) / p) := by
  have hp' : (0 : ℚ) < p := Int.cast_pos.2 hp
  have hdist : |(r : ℚ) - m / p| = ((|r * p - m| : ℤ) : ℚ) / p := by
    rw [Int.cast_abs, ← abs_of_pos hp', ← abs_div, abs_of_pos hp']
    push_cast
    rw [sub_div, mul_div_cancel_right₀ _ hp'.ne']
  rw [NearestEven, hdist, div_le_div_iff₀ hp' two_pos, div_eq_div_iff hp'.ne' two_ne_zero]
  norm_cast
  exact ⟨by omega, fun htie => heven (by omega)⟩

/-- The model's rounding of `m / 2^d` is the rounding of R139: by the remainder, below, above or at one half. -/
theorem roundTiesToEven_nearestEven (m d : Nat) :
    NearestEven (roundTiesToEven m d : ℤ) ((m : ℚ) / 2 ^ d) := by
  have hp : 0 < 2 ^ d := Nat.two_pow_pos d
  have hm : 2 ^ d * (m / 2 ^ d) + m % 2 ^ d = m := Nat.div_add_mod m (2 ^ d)
  have hr : m % 2 ^ d < 2 ^ d := Nat.mod_lt m hp
  have hcast : (m : ℚ) / 2 ^ d = ((m : ℤ) : ℚ) / ((2 ^ d : Nat) : ℤ) := by push_cast; rfl
  rw [hcast, roundTiesToEven]
  generalize 2 ^ d = p at *
  generalize m / p = q at *
  generalize m % p = r at *
  have floor (hle : 2 * r ≤ p) (htie : 2 * r = p → q % 2 = 0) :
      NearestEven ((q : Nat) : ℤ) (((m : ℤ) : ℚ) / (p : ℤ)) := by
    have hdist : |(q : ℤ) * p - m| = r := by rw [← hm, abs_sub_comm]; push_cast; ring_nf; simp
    apply nearestEven_div (by omega) <;> rw [hdist] <;> omega
  have ceil (hle : p ≤ 2 * r) (htie : 2 * r = p → q % 2 = 1) :
      NearestEven ((q + 1 : Nat) : ℤ) (((m : ℤ) : ℚ) / (p : ℤ)) := by
    have hdist : |((q + 1 : Nat) : ℤ) * p - m| = p - r := by
      rw [← abs_of_nonneg (by omega : (0 : ℤ) ≤ p - r), ← hm]; push_cast; ring_nf
    apply nearestEven_div (by omega) <;> rw [hdist] <;> omega
  split_ifs with below above even
  · exact floor (by omega) (by omega)
  · exact ceil (by omega) (by omega)
  · exact floor (by omega) (fun _ => even)
  · exact ceil (by omega) (by omega)

/-! ## The value of a binary32 -/

/-- The integer significand: 2^23 + fraction of a normal number, the fraction of a zero or subnormal one. -/
def significand (y : Binary32) : Nat :=
  if exponentBits y = 0 then fractionBits y else 2 ^ 23 + fractionBits y

/-- The exponent of the significand's unit, biased by 150: subnormals share that of the least normals. -/
def unitExponent (y : Binary32) : Nat := max (exponentBits y) 1

/-- The sign of bit 31 on an integer or rational magnitude. -/
def signed {α : Type} [Neg α] (y : Binary32) (v : α) : α := if y.msb then -v else v

theorem signed_mul (y : Binary32) (v c : ℚ) : signed y v * c = signed y (v * c) := by
  unfold signed
  split_ifs
  · exact neg_mul v c
  · rfl

/-- The sign does not matter to rounding. -/
theorem NearestEven.signed {r : ℤ} {v : ℚ} (h : NearestEven r v) (y : Binary32) :
    NearestEven (signed y r) (signed y v) := by
  unfold Machine.signed
  split_ifs
  · exact h.neg
  · exact h

theorem binary32Value_eq (y : Binary32) :
    binary32Value y = signed y ((significand y : ℚ) * (2 : ℚ) ^ ((unitExponent y : ℤ) - 150)) := by
  unfold binary32Value significand unitExponent
  by_cases h : exponentBits y = 0
  · simp only [h, if_true]; rfl
  · have hmax : max (exponentBits y) 1 = exponentBits y := by omega
    simp only [h, if_false, hmax]; rfl

/-- The scale 32768 of R139 moves the unit by 15 binary places. -/
theorem binary32Value_scaled (y : Binary32) :
    binary32Value y * 32768 = signed y ((significand y : ℚ) * (2 : ℚ) ^ ((unitExponent y : ℤ) - 135)) := by
  have h15 : (32768 : ℚ) = (2 : ℚ) ^ (15 : ℤ) := by norm_num
  rw [binary32Value_eq, signed_mul, mul_assoc, h15, ← zpow_add₀ two_ne_zero]
  ring_nf

/-! ## `sat16` (R139) -/

/-- The magnitude that `sat16` clamps: the significand, shifted up exactly or rounded down the binary places. -/
def roundedMagnitude (y : Binary32) : Nat :=
  if 135 ≤ unitExponent y then significand y * 2 ^ (unitExponent y - 135)
  else roundTiesToEven (significand y) (135 - unitExponent y)

/-- What `sat16` does on a finite number, once. -/
theorem sat16_of_finite {y : Binary32} (h : finite32 y) :
    sat16 y = clampSigned 16 (signed y (roundedMagnitude y : ℤ)) := by
  have hshift : unitExponent y + 16 - 151 = unitExponent y - 135 := by omega
  have hplaces : 151 - (unitExponent y + 16) = 135 - unitExponent y := by omega
  have hcond : 151 ≤ unitExponent y + 16 ↔ 135 ≤ unitExponent y := by omega
  have hsat : sat16 y = clampSigned 16 (signed y ((if 151 ≤ unitExponent y + 16 then
      significand y * 2 ^ (unitExponent y + 16 - 151)
      else roundTiesToEven (significand y) (151 - (unitExponent y + 16)) : Nat) : ℤ)) := if_neg h
  simp only [hsat, hshift, hplaces, hcond, roundedMagnitude]

/-- The clamped magnitude is the scaled one, rounded to nearest, ties to even. -/
theorem roundedMagnitude_nearestEven (y : Binary32) :
    NearestEven (roundedMagnitude y : ℤ)
      ((significand y : ℚ) * (2 : ℚ) ^ ((unitExponent y : ℤ) - 135)) := by
  unfold roundedMagnitude
  by_cases h : 135 ≤ unitExponent y
  · have hexp : (unitExponent y : ℤ) - 135 = ((unitExponent y - 135 : Nat) : ℤ) := by omega
    rw [if_pos h, hexp, zpow_natCast]
    exact .of_eq (by push_cast; rfl)
  · have hexp : (unitExponent y : ℤ) - 135 = -((135 - unitExponent y : Nat) : ℤ) := by omega
    rw [if_neg h, hexp, zpow_neg, zpow_natCast, ← div_eq_mul_inv]
    exact roundTiesToEven_nearestEven _ _

theorem signed_roundedMagnitude_nearestEven (y : Binary32) :
    NearestEven (signed y (roundedMagnitude y : ℤ)) (binary32Value y * 32768) := by
  rw [binary32Value_scaled]
  exact (roundedMagnitude_nearestEven y).signed y

theorem sat16_toInt_of_finite {y : Binary32} (h : finite32 y) :
    (sat16 y).toInt = min (max (signed y (roundedMagnitude y : ℤ)) (-32768)) 32767 := by
  rw [sat16_of_finite h, clampSigned_toInt 16 _ le_rfl]
  rfl

theorem sat16_of_nan {y : Binary32} (he : exponentBits y = 255) (hf : fractionBits y ≠ 0) :
    sat16 y = 0#16 :=
  (if_pos he).trans (if_neg hf)

/-- Settles O41: NaN, the two infinities, and a finite number by its rounded magnitude. -/
theorem saturatingConversion : Obligations.SaturatingConversion := by
  unfold Obligations.SaturatingConversion
  refine ⟨fun _ => sat16_of_nan, rfl, rfl, fun y hy => ?_⟩
  obtain ⟨hnear, heven⟩ := signed_roundedMagnitude_nearestEven y
  exact ⟨signed y (roundedMagnitude y : ℤ), hnear, heven, sat16_toInt_of_finite hy⟩

/-- A number that scales to an s16 is converted to it, with no rounding and no clamp. -/
theorem sat16_of_value {y : Binary32} {v : Sample} (hy : finite32 y)
    (h : binary32Value y * 32768 = (v.toInt : ℚ)) : sat16 y = v := by
  have hround := signed_roundedMagnitude_nearestEven y
  rw [h] at hround
  apply BitVec.eq_of_toInt_eq
  rw [sat16_toInt_of_finite hy, hround.eq_of_int]
  have hlo : -32768 ≤ v.toInt := BitVec.le_toInt v
  have hhi : v.toInt < 32768 := BitVec.toInt_lt
  omega

/-! ## `toWork` (R137) -/

/-- The fields of a pattern put together from its sign, biased exponent and fraction. -/
theorem packed_fields (b : Bool) (e : BitVec 8) (f : BitVec 23) :
    exponentBits (BitVec.ofBool b ++ e ++ f) = e.toNat ∧
      fractionBits (BitVec.ofBool b ++ e ++ f) = f.toNat ∧
      (BitVec.ofBool b ++ e ++ f).msb = b := by
  have hexp : (BitVec.ofBool b ++ e ++ f).extractLsb' 23 8 = e := by
    rw [BitVec.extractLsb'_append_eq_of_le (by decide)]
    exact BitVec.extractLsb'_append_eq_right
  have hfrac : (BitVec.ofBool b ++ e ++ f).extractLsb' 0 23 = f := BitVec.extractLsb'_append_eq_right
  refine ⟨congrArg BitVec.toNat hexp, congrArg BitVec.toNat hfrac, ?_⟩
  rw [BitVec.msb_append, if_neg (by decide), BitVec.msb_append, if_neg (by decide)]
  cases b <;> rfl

/-- The magnitude of an s16. -/
theorem natAbs_toInt_le (v : Sample) : v.toInt.natAbs ≤ 2 ^ 15 := by
  have hlo : -32768 ≤ v.toInt := BitVec.le_toInt v
  have hhi : v.toInt < 32768 := BitVec.toInt_lt
  omega

/-- |v| with its sign is v. -/
theorem ite_msb_natAbs (v : Sample) :
    (if v.msb then -(v.toInt.natAbs : ℤ) else v.toInt.natAbs) = v.toInt := by
  rw [BitVec.msb_eq_toInt]
  split_ifs with h <;> simp only [decide_eq_true_eq] at h <;> omega

/-- The place of the leading one of a magnitude that fits s16. -/
theorem log2_le_of_le {m : Nat} (h : m ≠ 0) (hm : m ≤ 2 ^ 15) : Nat.log2 m ≤ 15 :=
  Nat.lt_succ_iff.1 ((Nat.log2_lt h).2 (hm.trans_lt (by decide)))

/-- The fraction of R137 fills its 23 bits at most. -/
theorem fraction_lt {m : Nat} (he : Nat.log2 m ≤ 15) :
    (m - 2 ^ Nat.log2 m) * 2 ^ (23 - Nat.log2 m) < 2 ^ 23 := by
  have hlt : m < 2 ^ (Nat.log2 m + 1) := Nat.lt_log2_self
  rw [← pow_mul_pow_sub 2 (by omega : Nat.log2 m ≤ 23)]
  exact Nat.mul_lt_mul_of_pos_right (by omega) (Nat.two_pow_pos _)

/-- `to_work(v)` for v ≠ 0: the exponent is that of the leading one of |v|, the significand is |v| moved up to
24 bits, and the sign is that of v. -/
theorem toWork_fields {v : Sample} (hv : v.toInt.natAbs ≠ 0) :
    exponentBits (toWork v) = Nat.log2 v.toInt.natAbs + 112 ∧
      significand (toWork v) = v.toInt.natAbs * 2 ^ (23 - Nat.log2 v.toInt.natAbs) ∧
      (toWork v).msb = v.msb := by
  have he := log2_le_of_le hv (natAbs_toInt_le v)
  have hself := Nat.log2_self_le hv
  have hfrac := fraction_lt he
  have hwork : toWork v = BitVec.ofBool v.msb ++ BitVec.ofNat 8 (Nat.log2 v.toInt.natAbs + 112)
      ++ BitVec.ofNat 23
        ((v.toInt.natAbs - 2 ^ Nat.log2 v.toInt.natAbs) * 2 ^ (23 - Nat.log2 v.toInt.natAbs)) :=
    if_neg hv
  generalize v.toInt.natAbs = m at *
  obtain ⟨hexpBits, hfracBits, hsign⟩ := packed_fields v.msb (BitVec.ofNat 8 (Nat.log2 m + 112))
    (BitVec.ofNat 23 ((m - 2 ^ Nat.log2 m) * 2 ^ (23 - Nat.log2 m)))
  rw [← hwork] at hexpBits hfracBits hsign
  rw [BitVec.toNat_ofNat, Nat.mod_eq_of_lt (by omega)] at hexpBits
  rw [BitVec.toNat_ofNat, Nat.mod_eq_of_lt hfrac] at hfracBits
  refine ⟨hexpBits, ?_, hsign⟩
  rw [significand, if_neg (by omega), hfracBits, ← pow_mul_pow_sub 2 (by omega : Nat.log2 m ≤ 23),
    ← add_mul, Nat.add_sub_cancel' hself]

/-- `to_work(v)` is finite, and scaled by 32768 it is v (R137). -/
theorem toWork_value (v : Sample) :
    finite32 (toWork v) ∧ binary32Value (toWork v) * 32768 = (v.toInt : ℚ) := by
  by_cases hv : v.toInt.natAbs = 0
  · have hzero : toWork v = 0#32 := if_pos hv
    have hint : v.toInt = 0 := Int.natAbs_eq_zero.1 hv
    rw [hzero, hint]
    exact ⟨by decide, by simp [binary32Value, exponentBits, fractionBits]⟩
  · have he := log2_le_of_le hv (natAbs_toInt_le v)
    obtain ⟨hexp, hsig, hmsb⟩ := toWork_fields hv
    have hunit : (unitExponent (toWork v) : ℤ) - 135 = -((23 - Nat.log2 v.toInt.natAbs : Nat) : ℤ) := by
      rw [unitExponent, hexp]; omega
    have hmag : (significand (toWork v) : ℚ) * (2 : ℚ) ^ ((unitExponent (toWork v) : ℤ) - 135)
        = (v.toInt.natAbs : ℚ) := by
      rw [hunit, zpow_neg, zpow_natCast, hsig]
      push_cast
      exact mul_inv_cancel_right₀ (by positivity) _
    refine ⟨by rw [finite32, hexp]; omega, ?_⟩
    rw [binary32Value_scaled, hmag, signed, hmsb, ← ite_msb_natAbs v]
    split_ifs <;> simp

/-- Settles O40: the value of `to_work(v)`, which `sat16` then gives back without rounding. -/
theorem toWorkIsExact : Obligations.ToWorkIsExact := by
  unfold Obligations.ToWorkIsExact
  intro v
  obtain ⟨hfin, hval⟩ := toWork_value v
  exact ⟨hfin, eq_div_of_mul_eq (by norm_num) hval, sat16_of_value hfin hval⟩

end Sys2Proof.Machine
end

section
/-! PROOFS. The resampler's commands (41_resampler.md): the snapshot step of QUEUE and its rejection (R130, R131,
R142, R143, R153), REHASH (R150) and SETMUTE (R152). -/

namespace Sys2Proof.Machine

/-! ## Which of its cases a QUEUE takes -/

/-- QUEUE_REJ is bit 5 of EVENTS (10_state.md R28). -/
theorem State.raise_queueRej (s : State) : s.raise .queueRej = s.withEvents 0x020#12 := rfl

theorem life_ne_closed {s : State} (h : s.csr.life = .active) : s.csr.life ≠ .closed := by simp [h]

/-- A QUEUE of too many samples is rejected (R131). -/
theorem exec_queue_rejected {s : State} {x : List Sample} (hlife : s.csr.life = .active)
    (hx : s.params.inMax < x.length) : exec (.queue x) s = .next (s.withEvents 0x020#12) := by
  rw [exec_eq, effect_queue, State.unlessClosed_of_open _ _ (life_ne_closed hlife), queueCommand,
    if_neg (by simp [hlife]), if_pos hx, State.raise_queueRej]

/-- An accepted QUEUE with samples is the snapshot step (R130). -/
theorem exec_queue_accepted {s : State} {x : List Sample} (hlife : s.csr.life = .active) (hx : x ≠ [])
    (hlen : x.length ≤ s.params.inMax) :
    exec (.queue x) s = .next (queueSnapshot Config.src x s) := by
  rw [exec_eq, effect_queue, State.unlessClosed_of_open _ _ (life_ne_closed hlife), queueCommand,
    if_neg (by simp [hlife]), if_neg (by omega), if_neg (by simpa using hx)]

/-- Settles O36: the meaning on any state, then on the state whose ports the producer's step has read. -/
theorem queueRejection : Obligations.QueueRejection := by
  unfold Obligations.QueueRejection
  intro s x hlife hx
  refine ⟨exec_queue_rejected hlife hx, fun t hidle ht hdecode => ?_⟩
  rw [producerStep, State.producerMove_run hidle ht hdecode]
  exact exec_queue_rejected (s := { s with cmdIn := t.cmdRest, sampleIn := t.sampleRest }) hlife hx

/-! ## The correction in the registers (R134, R135, R142, R143) -/

/-- What an accepted QUEUE computes from the decimated block (R133 to R135). -/
def State.queueCorrection (s : State) (x : List Sample) : Correction :=
  correction s.params s.csr s.csr.framesQueued (decimate x s.csr.decim.toNat s.csr.channels.toNat).length

theorem queueSnapshot_ratio (conv : Converter) (x : List Sample) (s : State) :
    (queueSnapshot conv x s).csr.ratio = BitVec.ofNat 32 (s.queueCorrection x).ratio := by
  obtain ⟨_, _, _, _, rfl, rfl, rfl, rfl, heq⟩ := queueSnapshot_eq conv x s
  rw [heq, State.queueCorrection]

theorem queueSnapshot_lastOutreq (conv : Converter) (x : List Sample) (s : State) :
    (queueSnapshot conv x s).csr.lastOutreq = BitVec.ofNat 16 (s.queueCorrection x).oreq := by
  obtain ⟨_, _, _, _, rfl, rfl, rfl, rfl, heq⟩ := queueSnapshot_eq conv x s
  rw [heq, State.queueCorrection]

/-- RATIO holds the whole ratio: no bit is cut off. -/
theorem queueSnapshot_ratio_toNat (conv : Converter) (x : List Sample) (s : State) :
    (queueSnapshot conv x s).csr.ratio.toNat = (s.queueCorrection x).ratio := by
  have hbounds : 1 ≤ (s.queueCorrection x).ratio ∧ (s.queueCorrection x).ratio ≤ 131071 :=
    correction_ratio_bounds _ _ _ _
  rw [queueSnapshot_ratio, BitVec.toNat_ofNat, Nat.mod_eq_of_lt (by omega)]

/-- LAST_OUTREQ holds the whole request, which OUT_MAX bounds. -/
theorem queueSnapshot_lastOutreq_toNat (conv : Converter) (x : List Sample) {s : State}
    (hl : s.params.Legal) :
    (queueSnapshot conv x s).csr.lastOutreq.toNat = (s.queueCorrection x).oreq := by
  obtain ⟨_, _, _, hout, _⟩ := hl
  have hbound : (s.queueCorrection x).oreq ≤ s.params.outMax := Nat.min_le_right _ _
  rw [queueSnapshot_lastOutreq, BitVec.toNat_ofNat, Nat.mod_eq_of_lt (by omega)]

/-- The ratio is within CORR_MAX of 65536, whichever case of R134 gives it. -/
theorem correction_ratio_near (p : Params) (c : Csrs) (fq n1 : Nat) :
    (correction p c fq n1).ratio ≤ 65536 + c.corrMax.toNat ∧
      65536 ≤ (correction p c fq n1).ratio + c.corrMax.toNat := by
  have hclamp := clampRatio_bounds c (c.rawRatio (c.targetLow.toNat - fq))
  rw [correction_ratio]
  split_ifs <;> omega

/-- At or above the target occupancy there is nothing to correct (R134). -/
theorem correction_ratio_of_full {p : Params} {c : Csrs} {fq : Nat} (n1 : Nat)
    (h : c.targetLow.toNat ≤ fq) : (correction p c fq n1).ratio = 65536 := by
  rw [correction_ratio, if_neg (by omega)]

/-- Settles O37: the bounds of the clamp, and the branch without a correction. -/
theorem boundedCorrection : Obligations.BoundedCorrection := by
  unfold Obligations.BoundedCorrection
  intro s x hlife _ hx hlen
  obtain ⟨hle, hge⟩ : (s.queueCorrection x).ratio ≤ 65536 + s.csr.corrMax.toNat ∧
      65536 ≤ (s.queueCorrection x).ratio + s.csr.corrMax.toNat := correction_ratio_near _ _ _ _
  have hcorr : s.csr.corrMax.toNat < 65536 := s.csr.corrMax.isLt
  refine ⟨_, exec_queue_accepted hlife hx hlen, ?_⟩
  rw [queueSnapshot_ratio_toNat]
  refine ⟨hle, hge, by omega, fun hfull => ?_⟩
  have hone : (s.queueCorrection x).ratio = 65536 := correction_ratio_of_full _ hfull
  rw [queueSnapshot_ratio, hone]

/-- The uncorrected quotient is at least 1.0: the numerator only adds to NATIVE_RATE (R142). -/
theorem rawRatio_ge {c : Csrs} (h : c.nativeRate ≠ 0#20) (step : Nat) : 65536 ≤ c.rawRatio step := by
  have hpos : 0 < c.nativeRate.toNat := Nat.pos_of_ne_zero fun h0 => h (BitVec.eq_of_toNat_eq h0)
  rw [Csrs.rawRatio, Nat.le_div_iff_mul_le hpos, Nat.mul_comm]
  exact Nat.mul_le_mul_right _ (Nat.le_add_right _ _)

/-- The correction only lengthens (R142). -/
theorem correction_ratio_ge {p : Params} {c : Csrs} (h : c.nativeRate ≠ 0#20) (fq n1 : Nat) :
    65536 ≤ (correction p c fq n1).ratio := by
  have hraw := rawRatio_ge h (c.targetLow.toNat - fq)
  rw [correction_ratio]
  unfold Csrs.clampRatio
  split_ifs <;> omega

theorem correction_oreq_ge (p : Params) (c : Csrs) (fq n1 : Nat) :
    min n1 p.outMax ≤ (correction p c fq n1).oreq := by
  rw [correction_oreq]
  split_ifs
  · exact min_le_min_right _ (Nat.le_add_right _ _)
  · exact le_rfl

/-- Settles O38: both registers are functions of the correction, and that of what the two states share. -/
theorem proportionalOnlyControl : Obligations.ProportionalOnlyControl := by
  unfold Obligations.ProportionalOnlyControl
  intro s u x hs hu hconfig hx hlen hl hparams hcount hspc hlow hrate htick hcorr hscale hdecim hchannels
  obtain ⟨_, _, _, _, hnative, _⟩ := hconfig
  have hfq : u.csr.framesQueued = s.csr.framesQueued := by
    simp only [Csrs.framesQueued, hcount, hspc]
  have hratio : (u.queueCorrection x).ratio = (s.queueCorrection x).ratio := by
    simp only [State.queueCorrection, correction_ratio, Csrs.clampRatio, Csrs.rawRatio, hfq, hlow, hrate,
      htick, hcorr]
  have horeq : (u.queueCorrection x).oreq = (s.queueCorrection x).oreq := by
    simp only [State.queueCorrection, correction_oreq, hfq, hlow, hscale, hparams, hdecim, hchannels]
  refine ⟨_, _, exec_queue_accepted hs hx hlen, exec_queue_accepted hu hx (hparams ▸ hlen), ?_, ?_, ?_, ?_⟩
  · rw [queueSnapshot_ratio, queueSnapshot_ratio, hratio]
  · rw [queueSnapshot_lastOutreq, queueSnapshot_lastOutreq, horeq]
  · rw [queueSnapshot_ratio_toNat]
    exact correction_ratio_ge hnative _ _
  · rw [queueSnapshot_lastOutreq_toNat _ _ hl]
    exact correction_oreq_ge _ _ _ _

/-! ## Muting (R152, R153) -/

/-- What SRC answers to the conversion call of an accepted QUEUE (R138). -/
def State.queueMade (conv : Converter) (x : List Sample) (s : State) : Sigma × List Binary32 :=
  conv s.sigma s.csr.quality s.csr.channels (BitVec.ofNat 32 (s.queueCorrection x).ratio)
    (s.queueCorrection x).oreq ((decimate x s.csr.decim.toNat s.csr.channels.toNat).map toWork)

/-- The output block of an accepted QUEUE (R141, R139, R153). -/
def State.queueBlock (conv : Converter) (x : List Sample) (s : State) : List Sample :=
  outputBlock s.params s.csr.muted (s.queueMade conv x).2

/-- The output block waits unless it is empty (R130). -/
theorem queueSnapshot_phase (conv : Converter) (x : List Sample) (s : State) :
    (queueSnapshot conv x s).phase =
      if s.queueBlock conv x = [] then s.phase else .enqWait (s.queueBlock conv x) 0 := by
  obtain ⟨_, _, _, _, rfl, rfl, rfl, rfl, heq⟩ := queueSnapshot_eq conv x s
  have hempty : s.queueBlock conv x = [] ↔ min s.params.outMax (s.queueMade conv x).2.length = 0 := by
    rw [← List.length_eq_zero_iff, State.queueBlock, outputBlock_length]
  simp only [hempty, heq]
  rfl

/-- From IDLE the phase after a QUEUE is the one of its block, empty or not. -/
theorem queueSnapshot_phase_of_idle {conv : Converter} {x : List Sample} {s : State} (h : s.phase = .idle) :
    (queueSnapshot conv x s).phase.block = s.queueBlock conv x ∧
      (queueSnapshot conv x s).phase.waiting = decide (0 < (s.queueBlock conv x).length) ∧
      (queueSnapshot conv x s).phase.polls = 0 := by
  rw [queueSnapshot_phase]
  cases s.queueBlock conv x with
  | nil => rw [if_pos rfl, h]; exact ⟨rfl, rfl, rfl⟩
  | cons v rest => rw [if_neg (List.cons_ne_nil v rest)]; exact ⟨rfl, rfl, rfl⟩

/-- `s` with MODE.MUTED set. -/
def State.mute (s : State) : State := { s with csr := { s.csr with muted := true } }

/-- Muting leaves the length of the block and makes its samples zeros (R153). -/
theorem State.mute_queueBlock (conv : Converter) (x : List Sample) (s : State) :
    s.mute.queueBlock conv x = List.replicate (s.queueBlock conv x).length silence := by
  have hlength : (s.queueBlock conv x).length = min s.params.outMax (s.queueMade conv x).2.length :=
    outputBlock_length _ _ _
  rw [hlength]
  exact outputBlock_muted s.params (s.queueMade conv x).2

/-- Outside the phase, muting changes nothing that the snapshot step does (R153). -/
theorem queueSnapshot_mute (conv : Converter) (x : List Sample) (s : State) :
    queueSnapshot conv x s.mute =
      { (queueSnapshot conv x s).mute with phase := (queueSnapshot conv x s.mute).phase } := by
  obtain ⟨_, _, _, _, rfl, rfl, rfl, rfl, heq⟩ := queueSnapshot_eq conv x s
  obtain ⟨_, _, _, _, rfl, rfl, rfl, rfl, heqMuted⟩ := queueSnapshot_eq conv x s.mute
  rw [heq, heqMuted]
  rfl

/-- Settles O39: the snapshot step with MUTED set, and its block. -/
theorem muteOnlyZeroesTheBlock : Obligations.MuteOnlyZeroesTheBlock := by
  unfold Obligations.MuteOnlyZeroesTheBlock
  intro s x hlife _ _ hidle hx hlen
  obtain ⟨hblock, hwaiting, hpolls⟩ :=
    queueSnapshot_phase_of_idle (conv := Config.src) (x := x) hidle
  obtain ⟨hblock', hwaiting', hpolls'⟩ :=
    queueSnapshot_phase_of_idle (conv := Config.src) (x := x) (s := s.mute) hidle
  refine ⟨_, _, exec_queue_accepted hlife hx hlen, exec_queue_accepted (s := s.mute) hlife hx hlen,
    queueSnapshot_mute Config.src x s, ?_, ?_, ?_⟩
  · rw [hwaiting', hwaiting, State.mute_queueBlock, List.length_replicate]
  · rw [hpolls', hpolls]
  · rw [hblock', hblock, State.mute_queueBlock]

/-- Settles O43: outside CLOSED the lifecycle check passes. -/
theorem setmuteCommand : Obligations.SetmuteCommand := by
  unfold Obligations.SetmuteCommand
  intro s f hopen
  rw [exec_eq, effect_setmute, State.unlessClosed_of_open _ _ hopen]

/-! ## REHASH (R150) -/

/-- REHASH_REJ is bit 2 of EVENTS (10_state.md R28). -/
theorem State.raise_rehashRej (s : State) : s.raise .rehashRej = s.withEvents 0x004#12 := rfl

/-- Settles O42: the two branches of R150. In `Settled`, since the model's own `rehashCommand` has the name in
`Machine`. -/
theorem Settled.rehashCommand : Obligations.RehashCommand := by
  unfold Obligations.RehashCommand
  intro s q rate hopen
  rw [exec_eq, effect_rehash, State.unlessClosed_of_open _ _ hopen, Machine.rehashCommand]
  refine ⟨fun hbad => ?_, fun hrate hratio => ?_⟩
  · rw [if_pos hbad, State.raise_rehashRej]
  · rw [if_neg (not_or.2 ⟨hrate, hratio⟩)]

end Sys2Proof.Machine
end

section
/-! PROOFS. The frame pacer (42_frame_pacer.md): TICK (R160 to R164), a run of TICKs (R165, R166), and which
operations write REMAINDER (R167). -/

namespace Sys2Proof.Machine

/-! ## Division and accumulation (R163) -/

/-- The frame count is the quotient, plus one when the accumulated remainder reaches `r`. -/
theorem pace_fst (frametime r rem0 : Nat) :
    (pace frametime r rem0).1
      = if r ≤ rem0 + frametime % r then frametime / r + 1 else frametime / r := by
  simp only [pace, apply_ite Prod.fst]

theorem pace_snd (frametime r rem0 : Nat) :
    (pace frametime r rem0).2
      = if r ≤ rem0 + frametime % r then rem0 + frametime % r - r else rem0 + frametime % r := by
  simp only [pace, apply_ite Prod.snd]

/-- The new remainder is below the divisor if the old one is (R167). -/
theorem pace_snd_lt {frametime r rem0 : Nat} (h : rem0 < r) : (pace frametime r rem0).2 < r := by
  have hmod := Nat.mod_lt frametime (Nat.zero_lt_of_lt h)
  rw [pace_snd]
  split_ifs <;> omega

/-- A frame is added only where FRAMETIME is not a multiple of the divisor, so the count stays within it. -/
theorem pace_fst_le {frametime r rem0 : Nat} (h : rem0 < r) : (pace frametime r rem0).1 ≤ frametime := by
  have hquot := Nat.div_le_self frametime r
  have hle := Nat.le_mul_of_pos_left (frametime / r) (Nat.zero_lt_of_lt h)
  have hdiv := Nat.div_add_mod frametime r
  rw [pace_fst]
  split_ifs <;> omega

/-! ## The pacer's closed form over `n` TICKs (R165) -/

/-- The sum of `n` pacer counts from remainder `rem0`. -/
def pacedFrames (frametime r rem0 n : Nat) : Nat := n * (frametime / r) + (rem0 + n * (frametime % r)) / r

/-- The remainder after `n` TICKs from remainder `rem0`. -/
def pacedRemainder (frametime r rem0 n : Nat) : Nat := (rem0 + n * (frametime % r)) % r

theorem pace_snd_eq_mod {frametime r rem0 : Nat} (h : rem0 < r) :
    (pace frametime r rem0).2 = (rem0 + frametime % r) % r := by
  have hmod := Nat.mod_lt frametime (Nat.zero_lt_of_lt h)
  rw [pace_snd]
  split_ifs with hr
  · rw [Nat.mod_eq_sub_mod hr, Nat.mod_eq_of_lt (by omega : rem0 + frametime % r - r < r)]
  · rw [Nat.mod_eq_of_lt (by omega : rem0 + frametime % r < r)]

theorem pace_fst_eq_div {frametime r rem0 : Nat} (h : rem0 < r) :
    (pace frametime r rem0).1 = frametime / r + (rem0 + frametime % r) / r := by
  have hmod := Nat.mod_lt frametime (Nat.zero_lt_of_lt h)
  rw [pace_fst]
  split_ifs with hr
  · rw [Nat.div_eq_sub_div (Nat.zero_lt_of_lt h) hr,
      Nat.div_eq_of_lt (by omega : rem0 + frametime % r - r < r)]
  · rw [Nat.div_eq_of_lt (by omega : rem0 + frametime % r < r), Nat.add_zero]

theorem pacedRemainder_zero {frametime r rem0 : Nat} (h : rem0 < r) :
    pacedRemainder frametime r rem0 0 = rem0 := by
  rw [pacedRemainder, Nat.zero_mul, Nat.add_zero, Nat.mod_eq_of_lt h]

theorem pacedFrames_zero {frametime r rem0 : Nat} (h : rem0 < r) : pacedFrames frametime r rem0 0 = 0 := by
  rw [pacedFrames, Nat.zero_mul, Nat.zero_mul, Nat.add_zero, Nat.div_eq_of_lt h]

/-- The closed form of the remainder, by the first TICK. -/
theorem pacedRemainder_succ {frametime r rem0 : Nat} (h : rem0 < r) (n : Nat) :
    pacedRemainder frametime r rem0 (n + 1)
      = pacedRemainder frametime r (pace frametime r rem0).2 n := by
  rw [pacedRemainder, pacedRemainder, pace_snd_eq_mod h, Nat.mod_add_mod]
  congr 1
  ring

/-- The closed form of the sum, by the first TICK: the carries telescope. -/
theorem pacedFrames_succ {frametime r rem0 : Nat} (h : rem0 < r) (n : Nat) :
    pacedFrames frametime r rem0 (n + 1)
      = (pace frametime r rem0).1 + pacedFrames frametime r (pace frametime r rem0).2 n := by
  have hr : 0 < r := Nat.zero_lt_of_lt h
  have carry : (rem0 + (n + 1) * (frametime % r)) / r
      = (rem0 + frametime % r) / r + ((rem0 + frametime % r) % r + n * (frametime % r)) / r := by
    rw [← Nat.mul_add_div hr, ← Nat.add_assoc, Nat.div_add_mod]
    congr 1
    ring
  rw [pacedFrames, pacedFrames, pace_fst_eq_div h, pace_snd_eq_mod h, carry]
  ring

/-- From remainder 0 the sum is the whole number of frames in `n` frame times. -/
theorem pacedFrames_of_zero (frametime : Nat) {r : Nat} (hr : 0 < r) (n : Nat) :
    pacedFrames frametime r 0 n = n * frametime / r := by
  rw [pacedFrames, Nat.zero_add, ← Nat.mul_add_div hr]
  conv_rhs => rw [← Nat.div_add_mod frametime r]
  congr 1
  ring

/-- A quotient of naturals is less than one from the quotient of the rationals. -/
theorem abs_natDiv_sub_div_lt_one (m r : Nat) :
    |((m / r : Nat) : ℚ) - (m : ℚ) / r| < 1 := by
  have hle : ((m / r : Nat) : ℚ) ≤ (m : ℚ) / r := Nat.cast_div_le
  have hlt : (m : ℚ) / r < ((m / r : Nat) : ℚ) + 1 := by
    rw [← Nat.floor_div_eq_div (K := ℚ)]
    exact Nat.lt_floor_add_one _
  rw [abs_lt]
  constructor <;> linarith

/-! ## The divisor and the starting remainder (R161, R162) -/

/-- The reported rate is implausible, in the words of R161. -/
theorem Csrs.refreshImplausible_eq (c : Csrs) :
    c.refreshImplausible = (decide (c.refresh.toNat = 0) || decide (c.refresh.toNat < c.refreshMin.toNat)
      || decide (c.refreshMax.toNat < c.refresh.toNat)) := by
  simp only [Csrs.refreshImplausible, BitVec.lt_def, ← BitVec.toNat_inj, BitVec.toNat_zero]

/-- The divisor is never 0: a reported rate of 0 is implausible, and the fallback is not 0 (10_state.md R43). -/
theorem Csrs.effectiveRefresh_pos {c : Csrs} (h : c.refreshFallback ≠ 0#16) :
    0 < c.effectiveRefresh.toNat := by
  refine Nat.pos_of_ne_zero fun h0 => ?_
  replace h0 : c.effectiveRefresh = 0#16 := BitVec.eq_of_toNat_eq h0
  unfold Csrs.effectiveRefresh at h0
  split_ifs at h0 with hi
  · exact h h0
  · simp [Csrs.refreshImplausible, h0] at hi

theorem Csrs.startRemainder_of_eq {c : Csrs} (h : c.effectiveRefresh = c.effRefresh) :
    c.startRemainder = c.remainder.toNat := if_neg (not_not.2 h)

/-- What a TICK starts from is below its divisor (R162, R167). -/
theorem State.PacerInv.start_lt {s : State} (hp : s.PacerInv) (hc : s.ConfigInv) :
    s.csr.startRemainder < s.csr.effectiveRefresh.toNat := by
  obtain ⟨hbelow, _⟩ := hp
  obtain ⟨_, _, _, _, _, hfallback, _⟩ := hc
  have hpos := Csrs.effectiveRefresh_pos hfallback
  by_cases h : s.csr.effectiveRefresh = s.csr.effRefresh
  · have hne : s.csr.effRefresh ≠ 0#16 := by
      intro h0
      simp [h, h0] at hpos
    rw [Csrs.startRemainder_of_eq h, h]
    exact hbelow hne
  · rwa [Csrs.startRemainder, if_pos h]

/-! ## TICK (R160 to R164) -/

/-- The frame count and the new remainder of a TICK from these registers (R163). -/
def Csrs.paced (c : Csrs) : Nat × Nat := pace c.frametime.toNat c.effectiveRefresh.toNat c.startRemainder

/-- TICK where the lifecycle allows it, as one record. -/
theorem tickCommand_eq (s : State) :
    tickCommand s =
      { s with
        csr :=
          { s.csr with
            effRefresh := s.csr.effectiveRefresh
            remainder := BitVec.ofNat 16 s.csr.paced.2
            frameAcc := s.csr.frameAcc + BitVec.ofNat 32 s.csr.paced.1
            lastFrames := BitVec.ofNat 32 (s.csr.speedScale s.csr.paced.1)
            events := s.csr.events ||| (if s.csr.refreshImplausible then 0x040#12 else 0#12)
              ||| (if s.csr.framesSaturate s.csr.paced.1 then 0x080#12 else 0#12) }
        responses := s.responses ++ [BitVec.ofNat 32 (s.csr.speedScale s.csr.paced.1)] } := by
  simp only [tickCommand, State.raiseIf_eq, State.respond]
  rfl

@[simp] theorem tickCommand_effRefresh (s : State) :
    (tickCommand s).csr.effRefresh = s.csr.effectiveRefresh := by
  rw [tickCommand_eq]

theorem exec_tick_of_open {s : State} (h : s.csr.life ≠ .closed) : exec .tick s = .next (tickCommand s) := by
  rw [exec_eq, effect_tick, State.unlessClosed_of_open _ _ h]

/-- REMAINDER holds the whole new remainder, no bit cut off. -/
theorem tickCommand_remainder_toNat {s : State} (h : s.csr.startRemainder < s.csr.effectiveRefresh.toNat) :
    (tickCommand s).csr.remainder.toNat = s.csr.paced.2 := by
  have hlt : s.csr.paced.2 < s.csr.effectiveRefresh.toNat := pace_snd_lt h
  have hwidth := s.csr.effectiveRefresh.isLt
  rw [tickCommand_eq]
  simp only [BitVec.toNat_ofNat]
  exact Nat.mod_eq_of_lt (by omega)

theorem Csrs.speedScale_eq (c : Csrs) (f : Nat) :
    c.speedScale f = if c.paused = true then 0
      else if 2 ^ 32 - 1 < f * c.frameMult.toNat then 2 ^ 32 - 1 else f * c.frameMult.toNat := by
  rw [Csrs.speedScale, maxFrames]
  split_ifs <;> omega

theorem Csrs.framesSaturate_iff (c : Csrs) (f : Nat) :
    c.framesSaturate f = true ↔ c.paused = false ∧ 2 ^ 32 - 1 < f * c.frameMult.toNat := by
  rw [Csrs.framesSaturate, maxFrames, Bool.and_eq_true, Bool.not_eq_true', decide_eq_true_iff]

/-- Settles O44: each intermediate value of R161 to R164 brought to the model's, then the record of the TICK. In
`Settled`, since the model's own `tickCommand` has the name in `Machine`. -/
theorem Settled.tickCommand : Obligations.TickCommand := by
  unfold Obligations.TickCommand
  intro s hopen hconfig hpacer c F fallback R start sum f rem p out
  have hlt := hpacer.start_lt hconfig
  have hfallback : c.refreshImplausible = fallback := c.refreshImplausible_eq
  have hR : c.effectiveRefresh = R := by rw [Csrs.effectiveRefresh, hfallback]
  have hstart : c.startRemainder = start := by rw [Csrs.startRemainder, hR]
  have hf : c.paced.1 = f := by rw [Csrs.paced, pace_fst, hR, hstart]
  have hrem : c.paced.2 = rem := by rw [Csrs.paced, pace_snd, hR, hstart]
  have hout : c.speedScale f = out := c.speedScale_eq f
  refine ⟨?_, ?_, ?_, ?_⟩
  · rw [exec_tick_of_open hopen, tickCommand_eq, hR, hf, hrem, hout, hfallback]
    simp only [Csrs.framesSaturate_iff]
    rfl
  · rw [← hR]
    exact Nat.zero_lt_of_lt hlt
  · rw [← hrem, ← hR]
    exact pace_snd_lt hlt
  · rw [← hf]
    exact pace_fst_le hlt

/-! ## A run of TICKs (R165, R166) -/

theorem decode_tick : decode { word := 0x30000000#32, data := 0#32, payload := [] } = .ok .tick := rfl

/-- The word 0x30000000 alone is a TICK, whatever stands behind it. -/
theorem takeFrame_tick (cmds : List Word) (xs : List Sample) :
    takeFrame (0x30000000#32 :: cmds) xs
      = some
          { frame := { word := 0x30000000#32, data := 0#32, payload := [] }
            cmdRest := cmds
            sampleRest := xs } :=
  takeFrame_cons_eq_some_iff.2 ⟨⟨Nat.zero_le _, Nat.zero_le _⟩, rfl⟩

/-- The words `cmds` stand on the command port of an open, idle machine that no fill request disturbs, and whose
next TICK starts from REMAINDER, below its divisor. -/
structure State.Pacing (s : State) (cmds : List Word) : Prop where
  isOpen : s.csr.life ≠ .closed
  idle : s.phase = .idle
  noRequest : s.fillReq = []
  commands : s.cmdIn = cmds
  start : s.csr.startRemainder = s.csr.remainder.toNat
  below : s.csr.remainder.toNat < s.csr.effectiveRefresh.toNat

theorem State.Pacing.start_lt {s : State} {cmds : List Word} (h : s.Pacing cmds) :
    s.csr.startRemainder < s.csr.effectiveRefresh.toNat := h.start ▸ h.below

/-- The step of a pacing machine is its first TICK. -/
theorem State.Pacing.step_eq {s : State} {cmds : List Word} (h : s.Pacing (0x30000000#32 :: cmds)) :
    step s = .next (tickCommand { s with cmdIn := cmds }) := by
  have hframe := takeFrame_tick cmds s.sampleIn
  rw [← h.commands] at hframe
  rw [step, State.select_of_no_request h.noRequest, State.producerMove_run h.idle hframe decode_tick,
    Move.perform]
  exact exec_tick_of_open h.isOpen

/-- What one TICK makes of `s`, as far as the next one depends on it: its count and remainder are those of R163,
and it leaves the configuration. -/
structure Ticked (s u : State) : Prop where
  frametime : u.csr.frametime = s.csr.frametime
  effectiveRefresh : u.csr.effectiveRefresh = s.csr.effectiveRefresh
  paused : u.csr.paused = s.csr.paused
  frameMult : u.csr.frameMult = s.csr.frameMult
  remainder : u.csr.remainder.toNat = s.csr.paced.2
  frameAcc : u.csr.frameAcc = s.csr.frameAcc + BitVec.ofNat 32 s.csr.paced.1
  responses : u.responses = s.responses ++ [BitVec.ofNat 32 (s.csr.speedScale s.csr.paced.1)]

theorem tickCommand_ticked {s : State} (h : s.csr.startRemainder < s.csr.effectiveRefresh.toNat) :
    Ticked s (tickCommand s) := by
  constructor
  case remainder => exact tickCommand_remainder_toNat h
  case effectiveRefresh => rw [tickCommand_eq]; rfl
  all_goals rw [tickCommand_eq]

/-- One TICK of a pacing machine, which goes on pacing. -/
theorem State.Pacing.tick {s : State} {cmds : List Word} (h : s.Pacing (0x30000000#32 :: cmds)) :
    ∃ u, step s = .next u ∧ u.Pacing cmds ∧ Ticked s u := by
  obtain ⟨hframetime, heffective, hpaused, hmult, hrem, hacc, hresponses⟩ :=
    tickCommand_ticked (s := { s with cmdIn := cmds }) h.start_lt
  refine ⟨_, h.step_eq, ?_, hframetime, heffective, hpaused, hmult, hrem, hacc, hresponses⟩
  exact
    { isOpen := by rw [(tickCommand_frame _).mode.life]; exact h.isOpen
      idle := by rw [tickCommand_eq]; exact h.idle
      noRequest := by rw [tickCommand_eq]; exact h.noRequest
      commands := by rw [tickCommand_eq]
      start := Csrs.startRemainder_of_eq (heffective.trans (tickCommand_effRefresh _).symm)
      below := by rw [hrem, heffective]; exact pace_snd_lt h.start_lt }

/-- The pacer count of a pacing machine's next TICK. -/
theorem State.Pacing.paced_eq {s : State} {cmds : List Word} (h : s.Pacing cmds) :
    s.csr.paced = pace s.csr.frametime.toNat s.csr.effectiveRefresh.toNat s.csr.remainder.toNat := by
  rw [Csrs.paced, h.start]

/-- Unpaused at FRAME_MULT 1 the response is the frame count itself, which fits a word (R164). -/
theorem State.Pacing.response_toNat {s : State} {cmds : List Word} (h : s.Pacing cmds)
    (hrun : s.csr.paused = false) (hmult : s.csr.frameMult = 1#8) :
    (BitVec.ofNat 32 (s.csr.speedScale s.csr.paced.1)).toNat = s.csr.paced.1 := by
  have hle : s.csr.paced.1 ≤ s.csr.frametime.toNat := pace_fst_le h.start_lt
  have hwidth := s.csr.frametime.isLt
  have hscale : s.csr.speedScale s.csr.paced.1 = s.csr.paced.1 := by
    rw [Csrs.speedScale_eq, hrun, hmult, if_neg Bool.false_ne_true, BitVec.toNat_ofNat, if_neg (by omega)]
    omega
  rw [hscale, BitVec.toNat_ofNat, Nat.mod_eq_of_lt (by omega)]

theorem sumWords_cons (w : Word) (ws : List Word) : sumWords (w :: ws) = w.toNat + sumWords ws := by
  simp [sumWords]

/-- The law of R165, by induction on the number of TICKs: each adds its pacer count to FRAME_ACC and to the
responses, and hands its remainder to the next. -/
theorem State.Pacing.ticks {s : State} {n : Nat} {more : List Word}
    (h : s.Pacing (List.replicate n 0x30000000#32 ++ more)) :
    let F := s.csr.frametime.toNat
    let R := s.csr.effectiveRefresh.toNat
    let r0 := s.csr.remainder.toNat
    ∃ t out, runSteps n s = .next t ∧ t.cmdIn = more ∧
      t.csr.frameAcc = s.csr.frameAcc + BitVec.ofNat 32 (pacedFrames F R r0 n) ∧
      t.csr.remainder.toNat = pacedRemainder F R r0 n ∧
      t.responses = s.responses ++ out ∧ out.length = n ∧
      (s.csr.paused = false → s.csr.frameMult = 1#8 → sumWords out = pacedFrames F R r0 n) := by
  intro F R r0
  induction n generalizing s with
  | zero =>
    have hsum : pacedFrames F R r0 0 = 0 := pacedFrames_zero h.below
    refine ⟨s, [], rfl, h.commands, ?_, (pacedRemainder_zero h.below).symm, by simp, rfl, fun _ _ => ?_⟩
    · rw [hsum]
      exact (BitVec.add_zero _).symm
    · rw [hsum]
      rfl
  | succ n ih =>
    obtain ⟨u, hstep, hu, htick⟩ := h.tick
    obtain ⟨t, out, hrun, hcmds, hacc, hrem, hresponses, hlen, hsum⟩ := ih hu
    rw [htick.frametime, htick.effectiveRefresh, htick.remainder, h.paced_eq] at hacc hrem hsum
    rw [htick.frameAcc, h.paced_eq, BitVec.add_assoc, ← BitVec.ofNat_add,
      ← pacedFrames_succ h.below] at hacc
    rw [← pacedRemainder_succ h.below] at hrem
    rw [htick.responses, List.append_assoc] at hresponses
    refine ⟨t, _, (runSteps_succ hstep).trans hrun, hcmds, hacc, hrem, hresponses, ?_, fun hp hm => ?_⟩
    · rw [List.singleton_append, List.length_cons, hlen]
    · rw [List.singleton_append, sumWords_cons, h.response_toNat hp hm,
        hsum (htick.paused.trans hp) (htick.frameMult.trans hm), h.paced_eq, ← pacedFrames_succ h.below]

/-- Settles O45: the law of the run, and from REMAINDER 0 its sum as one quotient. -/
theorem boundedErrorPacing : Obligations.BoundedErrorPacing := by
  unfold Obligations.BoundedErrorPacing
  intro s T more hopen hidle hreq hcmds heff hrem F R r0 sum
  have hpacing : s.Pacing (List.replicate T 0x30000000#32 ++ more) :=
    ⟨hopen, hidle, hreq, hcmds, Csrs.startRemainder_of_eq heff, heff ▸ hrem⟩
  obtain ⟨t, out, hrun, hmore, hacc, hrem', hresponses, hlen, hsum⟩ := hpacing.ticks
  rw [heff] at hacc hrem' hsum
  refine ⟨t, hrun, hmore, hacc, hrem', fun hp hm => ⟨out, hresponses, hlen, hsum hp hm⟩, fun hr0 => ?_⟩
  have hR : 0 < R := Nat.zero_lt_of_lt hrem
  have hquot : sum = T * F / R := by
    rw [← pacedFrames_of_zero F hR T, ← hr0]
    rfl
  refine ⟨hquot, ?_⟩
  rw [hquot, ← Nat.cast_mul]
  exact abs_natDiv_sub_div_lt_one (T * F) R

/-- Settles O46: the law of the run with the numbers of R166. From REMAINDER 0 it does not matter which refresh
was recorded before. -/
theorem driftTest : Obligations.DriftTest := by
  unfold Obligations.DriftTest
  intro s hopen hidle hreq hcmds hframetime hrefresh hrem hmult hrun
  have hstart : s.csr.startRemainder = s.csr.remainder.toNat := by
    rw [Csrs.startRemainder, hrem]
    exact ite_self 0
  have hpacing : s.Pacing (List.replicate 10000 0x30000000#32 ++ []) :=
    ⟨hopen, hidle, hreq, by rw [hcmds, List.append_nil], hstart, by rw [hrem, hrefresh]; decide⟩
  obtain ⟨t, out, hsteps, _, hacc, hrem', hresponses, hlen, hsum⟩ := hpacing.ticks
  have hframes : pacedFrames (16683#32).toNat (60#16).toNat (0#16).toNat 10000 = 2780500 := by decide
  have hzero : pacedRemainder (16683#32).toNat (60#16).toNat (0#16).toNat 10000 = 0 := by decide
  rw [hframetime, hrefresh, hrem, hframes] at hacc hsum
  rw [hframetime, hrefresh, hrem, hzero] at hrem'
  exact ⟨t, out, hsteps, hresponses, hlen, hsum hrun hmult, hacc, BitVec.eq_of_toNat_eq hrem'⟩

/-! ## Which operations write the pacer's registers (R167) -/

/-- The registers that a TICK hands to the next one are the same (10_state.md R44). -/
structure SamePacer (s t : State) : Prop where
  remainder : t.csr.remainder = s.csr.remainder
  effRefresh : t.csr.effRefresh = s.csr.effRefresh

theorem SamePacer.refl (s : State) : SamePacer s s := ⟨rfl, rfl⟩

theorem SamePacer.raise (s : State) (e : Event) : SamePacer s (s.raise e) := ⟨rfl, rfl⟩

theorem SamePacer.trans {s t u : State} (h : SamePacer s t) (h' : SamePacer t u) : SamePacer s u :=
  ⟨h'.remainder.trans h.remainder, h'.effRefresh.trans h.effRefresh⟩

theorem SameMachine.samePacer {s u : State} (h : SameMachine s u) : SamePacer s u := by
  constructor <;> rw [h.csr]

/-- The pacer's registers pass through the lifecycle check. -/
theorem SamePacer.unlessClosed {s t : State} (h : SamePacer s t) : SamePacer s (s.unlessClosed t) :=
  State.unlessClosed_of (.raise s .badCmd) h

theorem State.dequeue_samePacer (s : State) (k : Nat) : SamePacer s (s.dequeue k) := by
  rw [State.dequeue_eq]
  exact ⟨rfl, rfl⟩

theorem State.commit_samePacer (s : State) (block : List Sample) : SamePacer s (s.commit block) := by
  rw [State.commit_eq]
  exact ⟨rfl, rfl⟩

theorem State.enqueueStep_samePacer (s : State) : SamePacer s s.enqueueStep := by
  obtain ⟨_, hidle⟩ | ⟨block, polls, _, ⟨_, hcommit⟩ | ⟨_, _, hpoll⟩ | ⟨_, _, htimeout⟩⟩ :=
    s.enqueueStep_cases
  · rw [hidle]; exact .refl s
  · rw [hcommit]; exact s.commit_samePacer block
  · rw [hpoll]; exact ⟨rfl, rfl⟩
  · rw [htimeout]; exact (SamePacer.raise s .waitTimeout).trans (State.commit_samePacer _ block)

theorem fillRequest_samePacer (k : Nat) (s : State) : SamePacer s (fillRequest k s) := by
  unfold fillRequest
  split_ifs
  · exact ⟨rfl, rfl⟩
  · exact s.dequeue_samePacer k

theorem queueCommand_samePacer (conv : Converter) (x : List Sample) (s : State) :
    SamePacer s (queueCommand conv x s) := by
  unfold queueCommand
  split_ifs
  · exact .refl s
  · exact .raise s _
  · exact .refl s
  · obtain ⟨_, _, _, _, _, _, _, _, heq⟩ := queueSnapshot_eq conv x s
    rw [heq]
    exact ⟨rfl, rfl⟩

theorem enqrawCommand_samePacer (x : List Sample) (s : State) : SamePacer s (enqrawCommand x s) := by
  unfold enqrawCommand
  split_ifs <;> exact ⟨rfl, rfl⟩

theorem rehashCommand_samePacer (q : BitVec 4) (rate : BitVec 20) (s : State) :
    SamePacer s (rehashCommand q rate s) := by
  unfold rehashCommand
  split_ifs <;> exact ⟨rfl, rfl⟩

theorem setspeedCommand_samePacer (m : BitVec 8) (s : State) : SamePacer s (setspeedCommand m s) := by
  unfold setspeedCommand
  split_ifs <;> exact ⟨rfl, rfl⟩

theorem State.readCsr_samePacer (s : State) (a : BitVec 8) : SamePacer s (s.readCsr a) := by
  obtain ⟨v, h⟩ | h := s.readCsr_cases a
  · rw [h]; exact ⟨rfl, rfl⟩
  · rw [h]; exact ⟨rfl, rfl⟩

@[simp] theorem RwCsr.set_effRefresh (r : RwCsr) (v : Word) (c : Csrs) :
    (r.set v c).effRefresh = c.effRefresh := by
  cases r <;> rfl

/-- Of the read-write registers only FRAMETIME, written with another value, clears REMAINDER
(10_state.md R42). -/
theorem RwCsr.set_remainder (r : RwCsr) (v : Word) (c : Csrs) :
    (r.set v c).remainder = c.remainder ∨
      r = .frametime ∧ v ≠ c.frametime ∧ (r.set v c).remainder = 0#16 := by
  cases r with
  | frametime =>
    by_cases hv : v = c.frametime
    · exact .inl (if_pos hv)
    · exact .inr ⟨rfl, hv, if_neg hv⟩
  | _ => exact .inl rfl

/-- What a CSRW does to the pacer's registers. -/
theorem State.writeCsr_pacer (s : State) (a : BitVec 8) (v : Word) :
    SamePacer s (s.writeCsr a v) ∨
      a = RwCsr.frametime.addr ∧ v ≠ s.csr.frametime ∧ (s.writeCsr a v).csr.remainder = 0#16 := by
  by_cases hrw : a ∈ rwCsrs.map RwCsr.addr
  · obtain ⟨r, _, rfl⟩ := List.mem_map.1 hrw
    by_cases hl : r.legal s.params v = true
    · rw [State.writeCsr_legal hl]
      obtain hkeep | ⟨rfl, hv, hclear⟩ := r.set_remainder v s.csr
      · exact .inl ⟨hkeep, r.set_effRefresh v s.csr⟩
      · exact .inr ⟨rfl, hv, hclear⟩
    · rw [State.writeCsr_illegal hl]
      exact .inl (.raise s _)
  · by_cases he : a = 0x06#8
    · rw [he, State.writeCsr_events]
      exact .inl ⟨rfl, rfl⟩
    · rw [State.writeCsr_readOnly he hrw]
      exact .inl (.raise s _)

/-- Among the instructions only TICK, OPEN and a CSRW of FRAMETIME with another value touch the pacer's
registers, and the last two clear REMAINDER. -/
theorem effect_pacer_cases (i : Instr) (s : State) :
    SamePacer s (effect i s) ∨ i = .tick ∨
      (effect i s).csr.remainder = 0#16 ∧
        ((∃ f, i = .openDev f) ∨ ∃ v, i = .csrw 0x20#8 v ∧ v ≠ s.csr.frametime) := by
  cases i with
  | tick => exact .inr (.inl rfl)
  | openDev f => exact .inr (.inr ⟨rfl, .inl ⟨f, rfl⟩⟩)
  | csrw a v =>
    obtain hsame | ⟨rfl, hv, hclear⟩ := s.writeCsr_pacer a v
    · exact .inl hsame.unlessClosed
    · by_cases hc : s.csr.life = .closed
      · rw [effect_refused hc rfl]
        exact .inl (.raise s _)
      · refine .inr (.inr ⟨?_, .inr ⟨v, rfl, hv⟩⟩)
        rw [effect_csrw, State.unlessClosed_of_open _ _ hc, hclear]
  | close => exact .inl ⟨rfl, rfl⟩
  | queue x => exact .inl (queueCommand_samePacer _ x s).unlessClosed
  | setspeed m => exact .inl (setspeedCommand_samePacer m s).unlessClosed
  | pause => exact .inl (SamePacer.unlessClosed ⟨rfl, rfl⟩)
  | unpause => exact .inl (SamePacer.unlessClosed ⟨rfl, rfl⟩)
  | setmute f => exact .inl (SamePacer.unlessClosed ⟨rfl, rfl⟩)
  | rehash q rate => exact .inl (rehashCommand_samePacer q rate s).unlessClosed
  | csrr a => exact .inl (s.readCsr_samePacer a)
  | enqraw x => exact .inl (enqrawCommand_samePacer x s).unlessClosed
  | fill k => exact .inl (fillRequest_samePacer k.toNat s)

/-- After a TICK REMAINDER is below EFF_REFRESH. -/
theorem tickCommand_remainder_lt {s : State} (h : s.csr.startRemainder < s.csr.effectiveRefresh.toNat) :
    (tickCommand s).csr.remainder < (tickCommand s).csr.effRefresh := by
  rw [BitVec.lt_def, tickCommand_remainder_toNat h, tickCommand_effRefresh]
  exact pace_snd_lt h

/-- Settles O47: the bound of one TICK, and of the three kinds of step the instructions that write REMAINDER. -/
theorem remainderInvariant : Obligations.RemainderInvariant := by
  unfold Obligations.RemainderInvariant
  refine ⟨fun s t hopen hconfig hpacer h => ?_, fun s t h hchange => ?_⟩
  · rw [exec_tick_of_open hopen] at h
    obtain rfl := Host.Outcome.next.inj h
    exact tickCommand_remainder_lt (hpacer.start_lt hconfig)
  · obtain ⟨u, _, hu, _, rfl⟩ | ⟨i, u, hsel, hu, _, rfl⟩ | ⟨u, _, hu, _, rfl⟩ := step_cases h
    · exact absurd (hu.samePacer.trans u.enqueueStep_samePacer).remainder hchange
    · obtain hsame | rfl | ⟨hclear, ⟨f, rfl⟩ | ⟨v, rfl, hv⟩⟩ := effect_pacer_cases i u
      · exact absurd (hu.samePacer.trans hsame).remainder hchange
      · exact .inl ⟨u, hsel⟩
      · exact .inr ⟨hclear, .inl ⟨f, u, hsel⟩⟩
      · exact .inr ⟨hclear, .inr ⟨v, u, hsel, hu.csr ▸ hv⟩⟩
    · exact absurd (hu.samePacer.trans (.raise u .badCmd)).remainder hchange

end Sys2Proof.Machine
end

section
/-! PROOFS. The speed controller (43_speed_controller.md): SETSPEED (R180, R181), decimation (R183, R186), PAUSE
and UNPAUSE (R184, R185), and the independence of FRAME_MULT and DECIM (R187). -/

namespace Sys2Proof.Machine

/-! ## SETSPEED (R180, R181) -/

/-- BAD_ARG is bit 4 of EVENTS (10_state.md R28). -/
theorem State.raise_badArg (s : State) : s.raise .badArg = s.withEvents 0x010#12 := rfl

/-- Settles O48: the two branches of R180 and R181. In `Settled`, since the model's own `setspeedCommand` has the
name in `Machine`. -/
theorem Settled.setspeedCommand : Obligations.SetspeedCommand := by
  unfold Obligations.SetspeedCommand
  intro s m hopen
  rw [exec_eq, effect_setspeed, State.unlessClosed_of_open _ _ hopen, Machine.setspeedCommand]
  refine ⟨fun hm => ?_, fun hm => ?_⟩
  · rw [if_neg hm]
  · rw [if_pos hm, State.raise_badArg]

/-! ## PAUSE and UNPAUSE (R184, R185) -/

/-- `s` with MODE.PAUSED at `b`. -/
def State.withPaused (s : State) (b : Bool) : State := { s with csr := { s.csr with paused := b } }

theorem exec_pause_of_open {s : State} (h : s.csr.life ≠ .closed) :
    exec .pause s = .next (s.withPaused true) := by
  rw [exec_eq, effect_pause, State.unlessClosed_of_open _ _ h, State.withPaused]

theorem exec_unpause_of_open {s : State} (h : s.csr.life ≠ .closed) :
    exec .unpause s = .next (s.withPaused false) := by
  rw [exec_eq, effect_unpause, State.unlessClosed_of_open _ _ h, State.withPaused]

/-- Paused, a TICK scales its frame count to 0 (42_frame_pacer.md R164). -/
theorem tickCommand_responses_of_paused {s : State} (h : s.csr.paused = true) :
    (tickCommand s).responses = s.responses ++ [0#32] := by
  rw [tickCommand_eq, Csrs.speedScale, if_pos h]

/-- The pacer does not read MODE.PAUSED: division and accumulation come before the scaling (R160, R163). -/
theorem tickCommand_withPaused_remainder (s : State) (b : Bool) :
    (tickCommand (s.withPaused b)).csr.remainder = (tickCommand s).csr.remainder := by
  rw [tickCommand_eq, tickCommand_eq]
  rfl

theorem tickCommand_withPaused_frameAcc (s : State) (b : Bool) :
    (tickCommand (s.withPaused b)).csr.frameAcc = (tickCommand s).csr.frameAcc := by
  rw [tickCommand_eq, tickCommand_eq]
  rfl

/-- Settles O49: the paused state, the TICK on it and the silent FILL. -/
theorem pauseCommand : Obligations.PauseCommand := by
  unfold Obligations.PauseCommand
  intro s hopen
  refine ⟨s.withPaused true, rfl, exec_pause_of_open hopen,
    ⟨_, exec_tick_of_open (s := s.withPaused true) hopen, tickCommand_responses_of_paused rfl,
      _, exec_tick_of_open hopen, tickCommand_withPaused_remainder s true,
      tickCommand_withPaused_frameAcc s true⟩, fun k => ?_⟩
  rw [exec_eq, effect_fill, fillRequest_silent (.inr rfl)]
  rfl

/-- Settles O50: the FILL after an UNPAUSE is a dequeue, and the paused state has the same contents. -/
theorem unpauseCommand : Obligations.UnpauseCommand := by
  unfold Obligations.UnpauseCommand
  intro s hopen
  refine ⟨exec_unpause_of_open hopen, fun hactive _ _ k => ⟨_, exec_eq _ _, ?_⟩⟩
  have hserved : ¬ ((s.withPaused false).csr.life ≠ .active ∨ (s.withPaused false).csr.paused = true) := by
    simp [State.withPaused, hactive]
  have hcontents : (s.withPaused false).contents = s.contents := rfl
  rw [effect_fill, ← State.withPaused, fillRequest_dequeue hserved, State.dequeue_fillData, hcontents,
    State.contents_length]
  rfl

/-! ## Decimation (R183) -/

theorem decimate_one (x : List Sample) (ch : Nat) : decimate x 1 ch = x := if_pos rfl

/-- `n` sample frames of `ch` samples, one behind the other, frame `f` being `g f`. -/
def interleave (n ch : Nat) (g : Nat → Nat → Sample) : List Sample :=
  (List.range n).flatMap fun f => (List.range ch).map (g f)

theorem decimate_eq_interleave {m : Nat} (hm : m ≠ 1) (x : List Sample) (ch : Nat) :
    decimate x m ch =
      interleave (keptFrames (x.length / ch) m) ch fun f c => x.getD (f * m * ch + c) silence := if_neg hm

theorem interleave_succ (n ch : Nat) (g : Nat → Nat → Sample) :
    interleave (n + 1) ch g = interleave n ch g ++ (List.range ch).map (g n) := by
  simp [interleave, List.range_succ]

@[simp] theorem interleave_length (n ch : Nat) (g : Nat → Nat → Sample) :
    (interleave n ch g).length = n * ch := by
  simp [interleave]

/-- Sample `c` of frame `f` stands at index `f * ch + c`: in an earlier frame, or in the last one. -/
theorem interleave_getElem? {n ch f c : Nat} (g : Nat → Nat → Sample) (hf : f < n) (hc : c < ch) :
    (interleave n ch g)[f * ch + c]? = some (g f c) := by
  induction n with
  | zero => exact absurd hf (Nat.not_lt_zero f)
  | succ n ih =>
    rw [interleave_succ]
    obtain hlt | rfl := Nat.lt_succ_iff_lt_or_eq.1 hf
    · have hin : f * ch + c < n * ch :=
        calc f * ch + c < (f + 1) * ch := by rw [Nat.succ_mul]; omega
          _ ≤ n * ch := Nat.mul_le_mul_right ch hlt
      rw [List.getElem?_append_left (by simpa using hin), ih hlt]
    · rw [List.getElem?_append_right (by simp)]
      simp [hc]

/-- A kept frame with divisor above 1 is a frame of the input: f ≤ nf1 - 1 gives f*m + m/2 ≤ nf (R183). -/
theorem mul_lt_of_lt_keptFrames {nf m f : Nat} (hm : 1 < m) (hf : f < keptFrames nf m) : f * m < nf := by
  have h : (f + 1) * (2 * m) ≤ 2 * nf + m := (Nat.le_div_iff_mul_le (by omega)).1 hf
  have hring : (f + 1) * (2 * m) = 2 * (f * m) + 2 * m := by ring
  omega

/-- Sample `c` of a whole frame of the input stands inside the input. -/
theorem frame_index_lt {len ch f c : Nat} (hf : f < len / ch) (hc : c < ch) : f * ch + c < len :=
  calc f * ch + c < (f + 1) * ch := by rw [Nat.succ_mul]; omega
    _ ≤ len / ch * ch := Nat.mul_le_mul_right ch hf
    _ ≤ len := Nat.div_mul_le_self len ch

/-- Settles O51: the length and the samples of the frames kept, each of them a frame of the input. -/
theorem decimationKeepsEveryMth : Obligations.DecimationKeepsEveryMth := by
  unfold Obligations.DecimationKeepsEveryMth
  intro x m ch hm _
  refine ⟨decimate_one x ch, fun hne => ?_⟩
  rw [decimate_eq_interleave hne]
  refine ⟨interleave_length _ _ _, fun f c hf hc => ?_⟩
  replace hf : f < keptFrames (x.length / ch) m := hf
  have hindex : f * m * ch + c < x.length :=
    frame_index_lt (mul_lt_of_lt_keptFrames (by omega) hf) hc
  refine ⟨hindex, ?_⟩
  rw [interleave_getElem? _ hf hc, List.getD_eq_getElem _ _ hindex, List.getElem?_eq_getElem hindex]

/-! ## Both parameters at one multiplier (R186) -/

/-- The length of a decimated mono block. At divisor 1 the count of frames kept is the whole block. -/
theorem decimate_mono_length (x : List Sample) (m : Nat) :
    (decimate x m 1).length = keptFrames x.length m := by
  by_cases hm : m = 1
  · rw [hm, decimate_one, keptFrames]
    omega
  · rw [decimate_eq_interleave hm, interleave_length, Nat.mul_one, Nat.div_one]

/-- The count of frames kept is the nearest integer to nf / m: taken `m` times it is within m/2 of nf. -/
theorem abs_mul_keptFrames_sub_le {m : Nat} (hm : 1 ≤ m) (nf : Nat) :
    2 * |((m * keptFrames nf m : Nat) : Int) - (nf : Int)| ≤ (m : Int) := by
  have hdiv : 2 * m * keptFrames nf m + (2 * nf + m) % (2 * m) = 2 * nf + m := Nat.div_add_mod _ _
  have hmod : (2 * nf + m) % (2 * m) < 2 * m := Nat.mod_lt _ (by omega)
  rw [Nat.mul_assoc] at hdiv
  obtain ⟨habs, _⟩ | ⟨habs, _⟩ := abs_cases (((m * keptFrames nf m : Nat) : Int) - (nf : Int))
  · omega
  · omega

/-- Below saturation and not paused, a frame count is scaled by FRAME_MULT (R164). -/
theorem Csrs.speedScale_of_le {c : Csrs} {f : Nat} (hrun : c.paused = false)
    (h : f * c.frameMult.toNat ≤ maxFrames) : c.speedScale f = f * c.frameMult.toNat := by
  rw [Csrs.speedScale, hrun, if_neg Bool.false_ne_true, Nat.min_eq_left h]

/-- Settles O52: the scaled count, and `f` times the rounding error of one block. -/
theorem lockstepSpeed : Obligations.LockstepSpeed := by
  unfold Obligations.LockstepSpeed
  intro s x f m hm hmult hdecim hchannels hrun hmax n1
  have hn1 : n1 = keptFrames x.length m := by
    show (decimate x s.csr.decim.toNat s.csr.channels.toNat).length = _
    rw [hdecim, hchannels]
    exact decimate_mono_length x m
  refine ⟨?_, ?_⟩
  · rw [Csrs.speedScale_of_le hrun (by rw [hmult]; exact hmax), hmult, Nat.mul_comm]
  · rw [hn1]
    generalize hq : keptFrames x.length m = q
    have herror : 2 * |((m * q : Nat) : Int) - (x.length : Int)| ≤ (m : Int) :=
      hq ▸ abs_mul_keptFrames_sub_le hm x.length
    calc 2 * |((m * f * q : Nat) : Int) - ((f * x.length : Nat) : Int)|
        = 2 * |(f : Int) * (((m * q : Nat) : Int) - (x.length : Int))| := by push_cast; congr 2; ring
      _ = (f : Int) * (2 * |((m * q : Nat) : Int) - (x.length : Int)|) := by
          rw [abs_mul, Nat.abs_cast]; ring
      _ ≤ (f : Int) * (m : Int) := by gcongr
      _ = ((m * f : Nat) : Int) := by push_cast; ring

/-! ## Each parameter has one reader (R187) -/

/-- `s` with FRAME_MULT at `m`. -/
def State.withFrameMult (s : State) (m : BitVec 8) : State := { s with csr := { s.csr with frameMult := m } }

/-- `s` with DECIM at `m`. -/
def State.withDecim (s : State) (m : BitVec 8) : State := { s with csr := { s.csr with decim := m } }

theorem exec_queue_of_open {s : State} (x : List Sample) (h : s.csr.life ≠ .closed) :
    exec (.queue x) s = .next (queueCommand Config.src x s) := by
  rw [exec_eq, effect_queue, State.unlessClosed_of_open _ _ h]

theorem queueSnapshot_withFrameMult (conv : Converter) (x : List Sample) (s : State) (m : BitVec 8) :
    queueSnapshot conv x (s.withFrameMult m) = (queueSnapshot conv x s).withFrameMult m := by
  obtain ⟨_, _, _, _, rfl, rfl, rfl, rfl, heq⟩ := queueSnapshot_eq conv x s
  obtain ⟨_, _, _, _, rfl, rfl, rfl, rfl, heqMult⟩ := queueSnapshot_eq conv x (s.withFrameMult m)
  rw [heq, heqMult]
  rfl

/-- None of the cases of a QUEUE reads or writes FRAME_MULT. -/
theorem queueCommand_withFrameMult (conv : Converter) (x : List Sample) (s : State) (m : BitVec 8) :
    queueCommand conv x (s.withFrameMult m) = (queueCommand conv x s).withFrameMult m := by
  rw [queueCommand, queueSnapshot_withFrameMult, queueCommand, apply_ite (State.withFrameMult · m),
    apply_ite (State.withFrameMult · m), apply_ite (State.withFrameMult · m)]
  rfl

/-- A TICK neither reads nor writes DECIM. -/
theorem tickCommand_withDecim (s : State) (m : BitVec 8) :
    tickCommand (s.withDecim m) = (tickCommand s).withDecim m := by
  rw [tickCommand_eq, tickCommand_eq]
  rfl

/-- Settles O53: the QUEUE and the TICK commute with a write of the other's parameter, and a legal CSRW is such a
write. -/
theorem speedParametersAreIndependent : Obligations.SpeedParametersAreIndependent := by
  unfold Obligations.SpeedParametersAreIndependent
  intro s t m v hopen
  refine ⟨fun x h => ?_, fun h => ?_, fun hlow hhigh => ⟨?_, ?_⟩⟩
  · rw [exec_queue_of_open x hopen] at h
    obtain rfl := Host.Outcome.next.inj h
    exact (exec_queue_of_open (s := s.withFrameMult m) x hopen).trans
      (congrArg _ (queueCommand_withFrameMult Config.src x s m))
  · rw [exec_tick_of_open hopen] at h
    obtain rfl := Host.Outcome.next.inj h
    exact (exec_tick_of_open (s := s.withDecim m) hopen).trans (congrArg _ (tickCommand_withDecim s m))
  · have hl : RwCsr.frameMult.legal s.params v = true := (RwCsr.legal_iff _ _ v).2 ⟨hlow, hhigh⟩
    rw [show (0x30#8) = RwCsr.frameMult.addr from rfl, exec_csrw_of_open hopen, State.writeCsr_legal hl]
    rfl
  · have hl : RwCsr.decim.legal s.params v = true := (RwCsr.legal_iff _ _ v).2 ⟨hlow, hhigh⟩
    rw [show (0x31#8) = RwCsr.decim.addr from rfl, exec_csrw_of_open hopen, State.writeCsr_legal hl]
    rfl

end Sys2Proof.Machine
end

section
/-! PROOFS. The lifecycle of the block: CLOSE (44_engine_control.md R191). -/

namespace Sys2Proof.Machine

/-- The state with LIFE put to `l`, as CLOSE puts it to CLOSED. -/
def State.withLife (s : State) (l : Life) : State := { s with csr := { s.csr with life := l } }

theorem effect_close_eq_withLife (s : State) : effect .close s = s.withLife .closed := effect_close s

/-- MODE is the only register that shows LIFE (10_state.md R27). -/
theorem Csr.value_withLife {c : Csr} (h : c ≠ .ro .mode) (s : State) (l : Life) :
    c.value (s.withLife l) = c.value s := by
  cases c with
  | ro r =>
    cases r with
    | mode => exact absurd rfl h
    | _ => rfl
  | rw r => cases r <;> rfl
  | events => rfl

/-- A CSRR of any address but MODE's neither reads nor writes LIFE. -/
theorem State.readCsr_withLife {a : BitVec 8} (ha : a ≠ 0x05#8) (s : State) (l : Life) :
    (s.withLife l).readCsr a = (s.readCsr a).withLife l := by
  cases hc : csrAt a with
  | none =>
    rw [State.readCsr_unmapped hc, State.readCsr_unmapped hc]
    rfl
  | some c =>
    obtain rfl := csrAt_addr hc
    have hmode : c ≠ .ro .mode := fun h => ha (congrArg Csr.addr h)
    rw [State.readCsr_addr, State.readCsr_addr, Csr.value_withLife hmode]
    rfl

/-- In CLOSED a FILL delivers silence and changes nothing. -/
theorem fillRequest_closed {s : State} (h : s.csr.life = .closed) (k : Nat) :
    fillRequest k s = s.deliver (List.replicate k silence) :=
  fillRequest_silent (.inl (by simp [h]))

/-- Settles O14: a CSRR commutes with the change of LIFE, and what the closed state allows and refuses is the
lifecycle check's. -/
theorem closeCommand : Obligations.CloseCommand := by
  unfold Obligations.CloseCommand
  intro s
  have hclosed : (s.withLife .closed).csr.life = .closed := rfl
  refine ⟨s.withLife .closed, rfl, ?_, fun a v ha hread => ?_, fun i hi => ?_, fun i hi => ?_, fun k => ?_⟩
  · rw [exec_eq, effect_close_eq_withLife]
  · rw [exec_eq, effect_csrr] at hread
    rw [exec_eq, effect_csrr, State.readCsr_withLife ha, Host.Outcome.next.inj hread]
    rfl
  · obtain ⟨refused, _⟩ := lifecycleLegality i (s.withLife .closed)
    exact refused hclosed hi
  · obtain ⟨_, allowed⟩ := lifecycleLegality i (s.withLife .closed)
    exact allowed (.inr hi)
  · rw [exec_eq, effect_fill, fillRequest_closed hclosed]
    rfl

end Sys2Proof.Machine
end

section
/-! PROOFS. Events, agents and progress (60_exceptions.md): the events of one command (R213), the order of the
two agents (R214), which steps complete (R219, R223), and the end of a waiting enqueue (R116, R219). -/

namespace Sys2Proof.Machine

/-! ## The events of one instruction (R213) -/

/-- The new events lie within those that can be raised. -/
theorem RaisesOnly.new_within {may : BitVec 12} {s t : State} (h : RaisesOnly may s t) :
    newEvents s t &&& ~~~may = 0#12 := by
  apply BitVec.eq_of_getLsbD_eq
  intro n hn
  by_contra hnew
  simp only [newEvents, BitVec.getLsbD_and, BitVec.getLsbD_not, BitVec.getLsbD_zero, hn, decide_true,
    Bool.true_and, Bool.not_eq_false, Bool.and_eq_true, Bool.not_eq_true'] at hnew
  obtain ⟨⟨ht, hs⟩, hmay⟩ := hnew
  obtain hs' | hmay' := h n ht
  · simp [hs] at hs'
  · simp [hmay] at hmay'

theorem RaisesOnly.commit {may : BitVec 12} {s t : State} (h : RaisesOnly may s t)
    (hdrop : may.getLsbD Event.drop.code = true) (block : List Sample) :
    RaisesOnly may s (t.commit block) := by
  unfold State.commit
  exact RaisesOnly.raiseIf (fun n hn => h n hn) hdrop

/-- A wait step raises at most WAIT_TIMEOUT, and DROP by its commit (40_ring_buffer.md R115, R117). -/
theorem State.enqueueStep_raises (s : State) : RaisesOnly 0x402#12 s s.enqueueStep := by
  have unchanged : RaisesOnly 0x402#12 s s := .of_events_eq rfl
  obtain ⟨_, hidle⟩ | ⟨block, polls, _, ⟨_, hcommit⟩ | ⟨_, _, hpoll⟩ | ⟨_, _, htimeout⟩⟩ :=
    s.enqueueStep_cases
  · rw [hidle]; exact unchanged
  · rw [hcommit]; exact unchanged.commit rfl block
  · rw [hpoll]; exact .of_events_eq rfl
  · rw [htimeout]; exact (unchanged.raise rfl).commit rfl block

/-- Settles O22: a refused command raises BAD_CMD alone, every other instruction only its own events. -/
theorem eventsOfEachInstruction : Obligations.EventsOfEachInstruction := by
  unfold Obligations.EventsOfEachInstruction
  intro i s t h may
  obtain rfl := exec_next_iff.1 h
  have hraises : RaisesOnly may s (effect i s) := by
    by_cases hrefused : s.csr.life = .closed ∧ Instr.allowedInClosed i = false
    · obtain ⟨hc, ha⟩ := hrefused
      have hmay : may = 0x008#12 := if_pos ⟨hc, ha⟩
      rw [effect_refused hc ha, hmay]
      exact (RaisesOnly.of_events_eq rfl).raise rfl
    · have hmay : may = eventsOf s.params i := (if_neg hrefused).trans (by cases i <;> rfl)
      rw [hmay]
      exact effect_raises (by rwa [not_and_or, Bool.not_eq_false] at hrefused)
  exact ⟨hraises.new_within, s.enqueueStep_raises.new_within⟩

/-! ## Which steps complete (R219, R223) -/

@[simp] theorem State.drawn_producerReady (s : State) : s.drawn.producerReady = s.producerReady := by
  simp [State.producerReady]

@[simp] theorem State.drawn_consumerReady (s : State) : s.drawn.consumerReady = s.consumerReady := by
  simp [State.consumerReady]

/-- Where both agents are ready, either of them moves, with the choice used up (R214). -/
theorem State.select_of_both_ready {s : State} (hc : s.consumerReady = true) (hp : s.producerReady = true) :
    s.select = s.drawn.producerMove ∨ s.select = s.drawn.consumerMove := by
  cases h : s.chosen <;> simp [State.select, hc, hp, h]

/-- A producer without a step is IDLE and has no whole command. -/
theorem State.producerReady_eq_false_iff (s : State) :
    s.producerReady = false ↔ s.phase = .idle ∧ takeFrame s.cmdIn s.sampleIn = none := by
  cases hphase : s.phase <;> simp [State.producerReady, hphase]

theorem producerStep_completes {s : State} (h : s.producerReady = true) : Completes (producerStep s) := by
  unfold producerStep
  obtain ⟨_, he⟩ | ⟨_, t, i, ⟨_, _, he⟩ | ⟨_, _, _, _, he⟩⟩ | ⟨hphase, hnone, _⟩ := s.producerMove_cases
  · rw [he]; exact ⟨_, rfl⟩
  · rw [he]; exact ⟨_, exec_eq i _⟩
  · rw [he]; exact ⟨_, rfl⟩
  · rw [s.producerReady_eq_false_iff.2 ⟨hphase, hnone⟩] at h
    cases h

theorem consumerStep_completes {s : State} (h : s.consumerReady = true) : Completes (consumerStep s) := by
  obtain ⟨k, ks, hreq⟩ := List.exists_cons_of_ne_nil (s.consumerReady_iff.1 h)
  rw [consumerStep, State.consumerMove_run hreq]
  exact ⟨_, exec_eq (.fill k) _⟩

/-- A step completes where an agent is ready. -/
theorem step_completes {s : State} (h : s.producerReady = true ∨ s.consumerReady = true) :
    Completes (step s) := by
  unfold step
  by_cases hc : s.consumerReady = true
  · by_cases hp : s.producerReady = true
    · obtain hsel | hsel := State.select_of_both_ready hc hp
      · rw [hsel]; exact producerStep_completes (by rwa [State.drawn_producerReady])
      · rw [hsel]; exact consumerStep_completes (by rwa [State.drawn_consumerReady])
    · rw [State.select_of_producer_silent hc (by simpa using hp)]
      exact consumerStep_completes hc
  · have hempty : s.fillReq = [] := not_not.1 fun hne => hc (s.consumerReady_iff.2 hne)
    rw [State.select_of_no_request hempty]
    exact producerStep_completes (h.resolve_right hc)

/-- Settles O9: with no agent ready the producer's move is stuck, under the name of what it waits for. -/
theorem stepStopsOnlyWithoutInput : Obligations.StepStopsOnlyWithoutInput := by
  unfold Obligations.StepStopsOnlyWithoutInput
  intro s
  by_cases hready : s.producerReady = true ∨ s.consumerReady = true
  · exact .inl (step_completes hready)
  rw [not_or, Bool.not_eq_true, s.producerReady_eq_false_iff, s.consumerReady_iff, not_not] at hready
  obtain ⟨⟨hphase, hnone⟩, hempty⟩ := hready
  have hstuck : step s = .fault (if s.cmdIn.isEmpty then .portsEmpty else .awaitingTrailingWords) := by
    rw [step, State.select_of_no_request hempty]
    simp only [State.producerMove, hphase, hnone, Move.perform]
  refine .inr ⟨hempty, hphase, ?_⟩
  by_cases hcmd : s.cmdIn = []
  · exact .inl ⟨hcmd, by rw [hstuck, hcmd]; rfl⟩
  · exact .inr ⟨hcmd, hnone, by rw [hstuck, if_neg (by simpa using hcmd)]⟩

/-! ## No operation touches the input ports or the schedule -/

/-- The same words, samples and requests stand on the input ports, and the same choices are to come. -/
structure SamePorts (s t : State) : Prop where
  cmdIn : t.cmdIn = s.cmdIn
  sampleIn : t.sampleIn = s.sampleIn
  fillReq : t.fillReq = s.fillReq
  sched : t.sched = s.sched

theorem SamePorts.refl (s : State) : SamePorts s s := ⟨rfl, rfl, rfl, rfl⟩

theorem SamePorts.raise {s t : State} (h : SamePorts s t) (e : Event) : SamePorts s (t.raise e) :=
  ⟨h.cmdIn, h.sampleIn, h.fillReq, h.sched⟩

theorem SamePorts.commit {s t : State} (h : SamePorts s t) (block : List Sample) :
    SamePorts s (t.commit block) := by
  rw [State.commit_eq]
  exact ⟨h.cmdIn, h.sampleIn, h.fillReq, h.sched⟩

/-- The lifecycle check touches them no more than the guarded effect does. -/
theorem SamePorts.unlessClosed {s t : State} (h : SamePorts s t) : SamePorts s (s.unlessClosed t) :=
  State.unlessClosed_of ((SamePorts.refl s).raise .badCmd) h

theorem State.enqueueStep_samePorts (s : State) : SamePorts s s.enqueueStep := by
  obtain ⟨_, hidle⟩ | ⟨block, polls, _, ⟨_, hcommit⟩ | ⟨_, _, hpoll⟩ | ⟨_, _, htimeout⟩⟩ :=
    s.enqueueStep_cases
  · rw [hidle]; exact .refl s
  · rw [hcommit]; exact (SamePorts.refl s).commit block
  · rw [hpoll]; exact ⟨rfl, rfl, rfl, rfl⟩
  · rw [htimeout]; exact ((SamePorts.refl s).raise _).commit block

theorem fillRequest_samePorts (k : Nat) (s : State) : SamePorts s (fillRequest k s) := by
  unfold fillRequest
  split_ifs
  · exact ⟨rfl, rfl, rfl, rfl⟩
  · rw [State.dequeue_eq]; exact ⟨rfl, rfl, rfl, rfl⟩

theorem tickCommand_samePorts (s : State) : SamePorts s (tickCommand s) := by
  constructor <;> simp [tickCommand]

theorem queueCommand_samePorts (conv : Converter) (x : List Sample) (s : State) :
    SamePorts s (queueCommand conv x s) := by
  unfold queueCommand
  split_ifs
  · exact .refl s
  · exact (SamePorts.refl s).raise _
  · exact .refl s
  · obtain ⟨_, _, _, _, _, _, _, _, heq⟩ := queueSnapshot_eq conv x s
    rw [heq]
    exact ⟨rfl, rfl, rfl, rfl⟩

theorem enqrawCommand_samePorts (x : List Sample) (s : State) : SamePorts s (enqrawCommand x s) := by
  unfold enqrawCommand
  split_ifs
  · exact .refl s
  · exact (SamePorts.refl s).raise _
  · exact .refl s
  · exact ⟨rfl, rfl, rfl, rfl⟩

theorem rehashCommand_samePorts (q : BitVec 4) (rate : BitVec 20) (s : State) :
    SamePorts s (rehashCommand q rate s) := by
  unfold rehashCommand
  split_ifs
  · exact (SamePorts.refl s).raise _
  · exact ⟨rfl, rfl, rfl, rfl⟩

theorem setspeedCommand_samePorts (m : BitVec 8) (s : State) : SamePorts s (setspeedCommand m s) := by
  unfold setspeedCommand
  split_ifs
  · exact (SamePorts.refl s).raise _
  · exact ⟨rfl, rfl, rfl, rfl⟩

theorem State.readCsr_samePorts (s : State) (a : BitVec 8) : SamePorts s (s.readCsr a) := by
  obtain ⟨v, h⟩ | h := s.readCsr_cases a <;> rw [h] <;> exact ⟨rfl, rfl, rfl, rfl⟩

theorem State.writeCsr_samePorts (s : State) (a : BitVec 8) (v : Word) : SamePorts s (s.writeCsr a v) := by
  obtain h | ⟨_, h⟩ | ⟨r, h⟩ := s.writeCsr_cases a v <;> rw [h] <;> exact ⟨rfl, rfl, rfl, rfl⟩

/-- No instruction touches them: a step takes its words off the ports before it runs. -/
theorem effect_samePorts (i : Instr) (s : State) : SamePorts s (effect i s) := by
  cases i with
  | openDev f => exact ⟨rfl, rfl, rfl, rfl⟩
  | close => exact ⟨rfl, rfl, rfl, rfl⟩
  | tick => exact (tickCommand_samePorts s).unlessClosed
  | queue x => exact (queueCommand_samePorts _ x s).unlessClosed
  | setspeed m => exact (setspeedCommand_samePorts m s).unlessClosed
  | pause => exact SamePorts.unlessClosed ⟨rfl, rfl, rfl, rfl⟩
  | unpause => exact SamePorts.unlessClosed ⟨rfl, rfl, rfl, rfl⟩
  | setmute f => exact SamePorts.unlessClosed ⟨rfl, rfl, rfl, rfl⟩
  | rehash q rate => exact (rehashCommand_samePorts q rate s).unlessClosed
  | csrw a v => exact (s.writeCsr_samePorts a v).unlessClosed
  | csrr a => exact s.readCsr_samePorts a
  | enqraw x => exact (enqrawCommand_samePorts x s).unlessClosed
  | fill k => exact fillRequest_samePorts k.toNat s

@[simp] theorem fillRequest_phase (k : Nat) (s : State) : (fillRequest k s).phase = s.phase := by
  unfold fillRequest
  split_ifs <;> simp

@[simp] theorem fillRequest_waitMax (k : Nat) (s : State) :
    (fillRequest k s).csr.waitMax = s.csr.waitMax := by
  unfold fillRequest
  split_ifs
  · rfl
  · rw [State.dequeue_eq]

/-! ## What each agent's step leaves for the other (R214) -/

/-- The producer's step leaves the fill requests and the schedule. -/
theorem producerStep_leaves {s t : State} (h : producerStep s = .next t) :
    t.fillReq = s.fillReq ∧ t.sched = s.sched := by
  unfold producerStep at h
  obtain ⟨_, he⟩ | ⟨_, f, i, ⟨_, _, he⟩ | ⟨f', _, _, _, he⟩⟩ | ⟨_, _, he⟩ := s.producerMove_cases
  · rw [he] at h
    obtain rfl := Host.Outcome.next.inj h
    exact ⟨s.enqueueStep_samePorts.fillReq, s.enqueueStep_samePorts.sched⟩
  · rw [he] at h
    obtain rfl := exec_next_iff.1 h
    exact ⟨(effect_samePorts i _).fillReq, (effect_samePorts i _).sched⟩
  · rw [he] at h
    obtain rfl := Host.Outcome.next.inj h
    exact ⟨rfl, rfl⟩
  · rw [he] at h
    cases h

/-- The consumer's step leaves what makes the producer ready, and the schedule. -/
theorem consumerStep_leaves {s t : State} (h : consumerStep s = .next t) :
    t.producerReady = s.producerReady ∧ t.sched = s.sched := by
  unfold consumerStep at h
  cases hreq : s.fillReq with
  | nil => simp [State.consumerMove, hreq, Move.perform] at h
  | cons k ks =>
    rw [State.consumerMove_run hreq, Move.perform] at h
    obtain rfl := exec_next_iff.1 h
    have hports := fillRequest_samePorts k.toNat { s with fillReq := ks }
    refine ⟨?_, hports.sched⟩
    simp only [State.producerReady, effect_fill, fillRequest_phase, hports.cmdIn, hports.sampleIn]

/-! ## Either agent may go first (R214) -/

/-- A ready producer that the schedule names steps, and a choice is used up only where the consumer is ready
too. -/
theorem step_eq_producerStep {s : State} {rest : List Agent} (hp : s.producerReady = true)
    (hs : s.sched = .producer :: rest) :
    step s = producerStep (if s.consumerReady then { s with sched := rest } else s) := by
  unfold step producerStep
  by_cases hc : s.consumerReady = true
  · rw [if_pos hc, State.select_of_sched_producer hc hp hs]
  · rw [if_neg hc, State.select_of_no_request (not_not.1 fun hne => hc (s.consumerReady_iff.2 hne))]

/-- A ready consumer that the schedule names steps, and a choice is used up only where the producer is ready
too. -/
theorem step_eq_consumerStep {s : State} {rest : List Agent} (hc : s.consumerReady = true)
    (hs : s.sched = .consumer :: rest) :
    step s = consumerStep (if s.producerReady then { s with sched := rest } else s) := by
  unfold step consumerStep
  by_cases hp : s.producerReady = true
  · rw [if_pos hp, State.select_of_sched_consumer hc hp hs]
  · rw [if_neg hp, State.select_of_producer_silent hc (by simpa using hp)]

/-- Two steps keep the ring buffer's invariant (10_state.md R29). -/
theorem two_steps_ringInv {s t u : State} (ht : step s = .next t) (hu : step t = .next u)
    (hl : s.params.Legal) (hs : s.RingInv) : t.RingInv ∧ u.RingInv := by
  have htInv := step_ringInv hl hs ht
  exact ⟨htInv, step_ringInv (by rwa [step_params ht]) htInv hu⟩

/-- Settles O8: the first step leaves the other agent ready and its choice next in the schedule. -/
theorem eitherAgentMayGoFirst : Obligations.EitherAgentMayGoFirst := by
  unfold Obligations.EitherAgentMayGoFirst
  intro s rest hp hc
  constructor
  · have hfirst : step { s with sched := .producer :: .consumer :: rest }
        = producerStep { s with sched := .consumer :: rest } :=
      congrArg Move.perform (State.select_of_sched_producer
        (s := { s with sched := .producer :: .consumer :: rest }) hc hp rfl)
    obtain ⟨t, hproducer⟩ :=
      producerStep_completes (s := { s with sched := .consumer :: rest }) hp
    have ht := hfirst.trans hproducer
    obtain ⟨hreq, hsched⟩ := producerStep_leaves hproducer
    have hready : t.consumerReady = true := by rw [State.consumerReady, hreq]; exact hc
    obtain ⟨u, hu⟩ := step_completes (.inr hready)
    exact ⟨t, u, ht, hproducer, hready, hu, (step_eq_consumerStep hready hsched).symm.trans hu,
      fun hl hs => two_steps_ringInv ht hu hl hs⟩
  · have hfirst : step { s with sched := .consumer :: .producer :: rest }
        = consumerStep { s with sched := .producer :: rest } :=
      congrArg Move.perform (State.select_of_sched_consumer
        (s := { s with sched := .consumer :: .producer :: rest }) hc hp rfl)
    obtain ⟨t, hconsumer⟩ :=
      consumerStep_completes (s := { s with sched := .producer :: rest }) hc
    have ht := hfirst.trans hconsumer
    obtain ⟨hsame, hsched⟩ := consumerStep_leaves hconsumer
    have hready : t.producerReady = true := hsame.trans hp
    obtain ⟨u, hu⟩ := step_completes (.inl hready)
    exact ⟨t, u, ht, hconsumer, hready, hu, (step_eq_producerStep hready hsched).symm.trans hu,
      fun hl hs => two_steps_ringInv ht hu hl hs⟩

/-! ## The end of a waiting enqueue (R219; 40_ring_buffer.md R116) -/

/-- While an enqueue waits, the machine's step is a wait step or serves the first fill request. -/
theorem State.select_of_waiting {s : State} {block : List Sample} {polls : Nat}
    (h : s.phase = .enqWait block polls) :
    (∃ w, s.select = .wait w ∧ SameMachine s w ∧ w.fillReq = s.fillReq) ∨
      ∃ k w, s.select = .run (.fill k) w ∧ SameMachine s w ∧ s.fillReq = k :: w.fillReq := by
  have hp : s.producerReady = true := by simp [State.producerReady, h]
  have hdrawn : s.drawn.phase = .enqWait block polls := by rw [State.drawn_phase, h]
  cases hreq : s.fillReq with
  | nil =>
    have hsel := (State.select_of_no_request hreq).trans (State.producerMove_wait h)
    exact .inl ⟨s, hsel, .refl s, hreq⟩
  | cons k ks =>
    have hc : s.consumerReady = true := s.consumerReady_iff.2 (by simp [hreq])
    obtain hsel | hsel := State.select_of_both_ready hc hp
    · rw [State.producerMove_wait hdrawn] at hsel
      exact .inl ⟨_, hsel, .drawn s, by rw [State.drawn_fillReq, hreq]⟩
    · rw [State.consumerMove_run (by rw [State.drawn_fillReq, hreq])] at hsel
      exact .inr ⟨k, _, hsel, (SameMachine.drawn s).trans ⟨rfl, rfl, rfl, rfl, rfl, rfl, rfl⟩, rfl⟩

/-- The next step of `t` commits the block that waits, with or without WAIT_TIMEOUT. -/
def CommitsNext (t : State) (block : List Sample) : Prop :=
  t.phase.waiting = true ∧ t.phase.block = block ∧
    ∃ u v, t.select = .wait u ∧ step t = .next v ∧
      (v = u.commit block ∨ v = (u.raise .waitTimeout).commit block) ∧ v.phase = .idle

theorem CommitsNext.completes {t : State} {block : List Sample} (h : CommitsNext t block) :
    Completes (step t) := by
  obtain ⟨_, _, _, v, _, hstep, _⟩ := h
  exact ⟨v, hstep⟩

/-- What a step of a waiting machine can be, once: the commit, a poll of the producer's, or a FILL. -/
theorem step_of_waiting {s : State} {block : List Sample} {polls : Nat}
    (h : s.phase = .enqWait block polls) :
    CommitsNext s block ∧ s.select.isConsumers = false ∨
      ∃ t, step s = .next t ∧ t.csr.waitMax = s.csr.waitMax ∧
        (polls < s.csr.waitMax.toNat ∧ t.phase = .enqWait block (polls + 1) ∧ t.fillReq = s.fillReq ∧
            s.select.isConsumers = false ∨
          t.phase = .enqWait block polls ∧ s.fillReq.length = t.fillReq.length + 1 ∧
            s.select.isConsumers = true) := by
  obtain ⟨w, hsel, hw, hreq⟩ | ⟨k, w, hsel, hw, hreq⟩ := State.select_of_waiting h
  · have hstep : step s = .next w.enqueueStep := by rw [step, hsel]; rfl
    have hcons : s.select.isConsumers = false := by rw [hsel]; rfl
    have commits (hv : w.enqueueStep = w.commit block ∨
        w.enqueueStep = (w.raise .waitTimeout).commit block) : CommitsNext s block := by
      refine ⟨by rw [h]; rfl, by rw [h]; rfl, w, _, hsel, hstep, hv, ?_⟩
      obtain hv | hv := hv <;> rw [hv, State.commit_phase]
    have hphase : w.phase = .enqWait block polls := hw.phase.trans h
    obtain ⟨hidle, _⟩ | ⟨block', polls', hphase', hcases⟩ := w.enqueueStep_cases
    · rw [hidle] at hphase
      cases hphase
    · obtain ⟨rfl, rfl⟩ := Phase.enqWait.inj (hphase'.symm.trans hphase)
      obtain ⟨_, hcommit⟩ | ⟨_, hlt, hpoll⟩ | ⟨_, _, htimeout⟩ := hcases
      · exact .inl ⟨commits (.inl hcommit), hcons⟩
      · rw [hpoll] at hstep
        exact .inr ⟨_, hstep, by rw [hw.csr], .inl ⟨by rwa [hw.csr] at hlt, rfl, hreq, hcons⟩⟩
      · exact .inl ⟨commits (.inr htimeout), hcons⟩
  · have hstep : step s = .next (fillRequest k.toNat w) := by
      rw [step, hsel, Move.perform, exec_eq, effect_fill]
    refine .inr ⟨_, hstep, by rw [fillRequest_waitMax, hw.csr], .inr ⟨?_, ?_, by rw [hsel]; rfl⟩⟩
    · rw [fillRequest_phase, hw.phase, h]
    · rw [hreq, (fillRequest_samePorts _ w).fillReq, List.length_cons]

/-- A run from `s` ends where the block commits next. With that commit it has `p` steps of the producer's, and
every other step serves a fill request. -/
def RunsToCommit (s : State) (block : List Sample) (p : Nat) : Prop :=
  ∃ n t, runSteps n s = .next t ∧ CommitsNext t block ∧ producerSteps (n + 1) s = p ∧
    (n + 1) + t.fillReq.length = p + s.fillReq.length

theorem CommitsNext.runsToCommit {s : State} {block : List Sample} (h : CommitsNext s block)
    (hown : s.select.isConsumers = false) : RunsToCommit s block 1 := by
  obtain ⟨v, hstep⟩ := h.completes
  refine ⟨0, s, rfl, h, ?_, rfl⟩
  rw [producerSteps_succ hstep, hown]
  rfl

theorem RunsToCommit.poll {s u : State} {block : List Sample} {p : Nat} (h : RunsToCommit u block p)
    (hstep : step s = .next u) (hown : s.select.isConsumers = false) (hreq : u.fillReq = s.fillReq) :
    RunsToCommit s block (p + 1) := by
  obtain ⟨n, t, hrun, hcommit, hsteps, hcount⟩ := h
  refine ⟨n + 1, t, (runSteps_succ hstep).trans hrun, hcommit, ?_, ?_⟩
  · rw [producerSteps_succ hstep, hown, hsteps, Nat.add_comm]
    rfl
  · rw [hreq] at hcount
    omega

theorem RunsToCommit.fill {s u : State} {block : List Sample} {p : Nat} (h : RunsToCommit u block p)
    (hstep : step s = .next u) (hown : s.select.isConsumers = true)
    (hreq : s.fillReq.length = u.fillReq.length + 1) : RunsToCommit s block p := by
  obtain ⟨n, t, hrun, hcommit, hsteps, hcount⟩ := h
  refine ⟨n + 1, t, (runSteps_succ hstep).trans hrun, hcommit, ?_, by omega⟩
  rw [producerSteps_succ hstep, hown, hsteps, if_pos rfl, Nat.zero_add]

/-- Every waiting enqueue runs to its commit: a poll uses up one of the polls left, a FILL one of the requests
that stand. -/
theorem waiting_runsToCommit {s : State} {block : List Sample} {polls : Nat}
    (h : s.phase = .enqWait block polls) :
    ∃ p, p ≤ s.csr.waitMax.toNat - polls + 1 ∧ RunsToCommit s block p := by
  induction hm : s.csr.waitMax.toNat - polls + s.fillReq.length using Nat.strong_induction_on
    generalizing s polls with
  | _ m ih =>
    obtain ⟨hnow, hown⟩ | ⟨u, hstep, hmax, ⟨hleft, hphase, hreq, hown⟩ | ⟨hphase, hreq, hown⟩⟩ :=
      step_of_waiting h
    · exact ⟨1, by omega, hnow.runsToCommit hown⟩
    · obtain ⟨p, hbound, hrun⟩ := ih _ (by rw [hmax, hreq]; omega) hphase rfl
      rw [hmax] at hbound
      exact ⟨p + 1, by omega, hrun.poll hstep hown hreq⟩
    · obtain ⟨p, hbound, hrun⟩ := ih _ (by rw [hmax]; omega) hphase rfl
      rw [hmax] at hbound
      exact ⟨p, hbound, hrun.fill hstep hown hreq⟩

/-- Settles O30: the run to the commit, and the commit's own step. -/
theorem enqueueWaitEnds : Obligations.EnqueueWaitEnds := by
  unfold Obligations.EnqueueWaitEnds
  intro s block polls h
  obtain ⟨p, hbound, n, t, hrun, hcommits, rfl, hcount⟩ := waiting_runsToCommit h
  obtain ⟨hwaiting, hblock, u, v, hsel, hstep, hcommit, hidle⟩ := hcommits
  exact ⟨n, t, u, v, hrun, hwaiting, hblock, hsel, hstep, hcommit, hidle, hbound, hcount⟩

end Sys2Proof.Machine
end

section
/-! PROOFS. Reset and hazards (70_reset_and_hazards.md): the power-on state (R240), the state that OPEN goes back
to (R241), and the consumer, which never waits (R250). -/

namespace Sys2Proof.Machine

/-! ## The power-on state (R240, R241) -/

/-- Settles O12: CSRR reads each register of the map, whose value at reset is the one of the reset column. -/
theorem powerOnState : Obligations.PowerOnState := by
  unfold Obligations.PowerOnState
  refine ⟨fun p hp => ?_, rfl, rfl, rfl, rfl, rfl, rfl, rfl⟩
  obtain ⟨mapped, _⟩ := csrrReadsTheMap State.reset
  have hread := mapped (p.1, p.2.toNat) (List.mem_map_of_mem (f := fun p => (p.1, p.2.toNat)) hp)
  rw [hread, BitVec.ofNat_toNat, BitVec.setWidth_eq]
  rfl

/-- Settles O13: OPEN's effect, with the registers and the converter state read off the reset state. -/
theorem openReturnsToPowerOn : Obligations.OpenReturnsToPowerOn := by
  unfold Obligations.OpenReturnsToPowerOn
  intro s f
  rw [exec_eq, effect_openDev]
  rfl

/-! ## The consumer's step (R250) -/

/-- What a FILL writes: the delivery, and in the registers at most RB_START, RB_COUNT, the two counters of the
consumer and the bit UNDERRUN. -/
theorem fillRequest_writes (k : Nat) (s : State) :
    ∃ (xs : List Sample) (start count delivered underruns : Word) (underrun : Bool),
      xs.length = k ∧
      fillRequest k s =
        { s with
          fillData := s.fillData ++ xs
          csr :=
            { s.csr with
              rbStart := start
              rbCount := count
              deliverCnt := delivered
              underrunCnt := underruns
              events := s.csr.events ||| (if underrun then Event.underrun.bit else 0#12) } } := by
  by_cases h : s.csr.life ≠ .active ∨ s.csr.paused = true
  · refine ⟨_, s.csr.rbStart, s.csr.rbCount, s.csr.deliverCnt, s.csr.underrunCnt, false,
      List.length_replicate (a := silence), ?_⟩
    rw [fillRequest_silent h, if_neg Bool.false_ne_true, BitVec.or_zero]
    rfl
  · refine ⟨s.window (s.fillCount k) ++ List.replicate (k - s.fillCount k) silence,
      (s.dequeue k).csr.rbStart, (s.dequeue k).csr.rbCount, (s.dequeue k).csr.deliverCnt,
      (s.dequeue k).csr.underrunCnt, decide (s.fillCount k < k), ?_, ?_⟩
    · rw [List.length_append, State.window_length, List.length_replicate,
        Nat.add_sub_cancel' (s.fillCount_le_request k)]
    · simp only [fillRequest_dequeue h, State.dequeue_eq, decide_eq_true_eq]

/-- Settles O10: the consumer's step is the FILL it takes off the port. -/
theorem consumerNeverWaits : Obligations.ConsumerNeverWaits := by
  unfold Obligations.ConsumerNeverWaits
  intro s k ks hreq
  obtain ⟨hstep, _⟩ := stepRunsTheFillRequest s k ks hreq
  obtain ⟨xs, start, count, delivered, underruns, underrun, hlen, hfill⟩ :=
    fillRequest_writes k.toNat { s with fillReq := ks }
  refine ⟨xs, start, count, delivered, underruns, underrun, hlen, ?_⟩
  rw [hstep, exec_eq, effect_fill, hfill]
  rfl

end Sys2Proof.Machine
end

section
/-! PROOFS. Encoding and decoding are inverse (30_encoding.md R80 to R91): a well-formed instruction is read back
from its port words, and a word that decodes is the encoding of its fields. -/

namespace Sys2Proof.Machine

/-! ## From the instruction to its frame -/

/-- A word with exactly its trailing words and samples behind it is one whole frame, whatever stands behind these
(30_encoding.md R90). -/
theorem takeFrame_exact {w : Word} {ds : List Word} {x : List Sample} (hd : ds.length = trailingWords w)
    (hx : x.length = trailingSamples w) (cs : List Word) (xs : List Sample) :
    takeFrame (w :: ds ++ cs) (x ++ xs) =
      some { frame := { word := w, data := ds.headD 0#32, payload := x }, cmdRest := cs, sampleRest := xs } := by
  have hwhole : takeFrame (w :: ds) x = some
      { frame := { word := w, data := ds.headD 0#32, payload := x }, cmdRest := [], sampleRest := [] } := by
    rw [takeFrame_cons, if_pos ⟨hd.ge, hx.ge⟩, ← hd, ← hx]
    cases ds <;> simp
  exact takeFrame_append hwhole cs xs

/-- What `encode` writes for a command: its word, and exactly the trailing words and samples that the word
announces, which decode to the command. -/
structure EncodedAs (i : Instr) (w : Word) (ds : List Word) (x : List Sample) : Prop where
  ports : encode i = { cmd := w :: ds, samples := x, fills := [] }
  words : ds.length = trailingWords w
  samples : x.length = trailingSamples w
  decodes : decode { word := w, data := ds.headD 0#32, payload := x } = .ok i

theorem trailing_of_plain {w : Word} {op : BitVec 4} (hop : opcode w = op)
    (h : op ≠ 0xA#4 ∧ op ≠ 0x4#4 ∧ op ≠ 0xC#4) : trailingWords w = 0 ∧ trailingSamples w = 0 := by
  obtain ⟨hcsrw, hqueue, henqraw⟩ := h
  simp [trailingWords, trailingSamples, hop, hcsrw, hqueue, henqraw]

/-- A command of one word. -/
theorem EncodedAs.oneWord {i : Instr} {w : Word} {op : BitVec 4} (hports : encode i = Sys2Proof.oneWord w)
    (hop : opcode w = op) (h : op ≠ 0xA#4 ∧ op ≠ 0x4#4 ∧ op ≠ 0xC#4)
    (hdecode : decode { word := w, data := 0#32, payload := [] } = .ok i) : EncodedAs i w [] [] := by
  obtain ⟨hwords, hsamples⟩ := trailing_of_plain hop h
  exact ⟨hports, hwords.symm, hsamples.symm, hdecode⟩

/-- The length of a payload that fits is read back from the field N (30_encoding.md R83). -/
theorem trailingSamples_formatL {op : BitVec 4} {x : List Sample} (hop : op = 0x4#4 ∨ op = 0xC#4)
    (hx : PayloadFits x) : x.length = trailingSamples (formatL op (BitVec.ofNat 16 x.length)) := by
  rw [trailingSamples, opcode_formatL, if_pos hop, fieldN_formatL, BitVec.toNat_ofNat, Nat.mod_eq_of_lt hx]

/-- What a decoder arm answers for a word without a reserved bit. -/
theorem unlessReserved_clear {reserved w : Word} (h : w &&& reserved = 0#32) (i : Instr) :
    unlessReserved reserved w i = .ok i := if_pos h

/-- Every well-formed command has such an encoding: FILL alone stands on the fill port. -/
theorem encodedAs_of_wellFormed {i : Instr} (hwf : i.WellFormed) (hfills : (encode i).fills = []) :
    ∃ w ds x, EncodedAs i w ds x := by
  cases i with
  | fill k => cases hfills
  | openDev f | setmute f =>
    exact ⟨_, _, _, .oneWord rfl (opcode_formatB _ f) (by decide) (by
      simp [decode, unlessReserved_clear])⟩
  | close | tick | pause | unpause =>
    exact ⟨_, _, _, .oneWord rfl (opcode_formatN _) (by decide) (by simp [decode, unlessReserved_clear])⟩
  | setspeed m =>
    exact ⟨_, _, _, .oneWord rfl (opcode_formatS _ m) (by decide) (by simp [decode, unlessReserved_clear])⟩
  | rehash q rate =>
    exact ⟨_, _, _, .oneWord rfl (opcode_formatH _ q rate) (by decide) (by
      simp [decode, unlessReserved_clear])⟩
  | csrr a =>
    exact ⟨_, _, _, .oneWord rfl (opcode_formatA _ a) (by decide) (by simp [decode, unlessReserved_clear])⟩
  | csrw a v =>
    exact ⟨_, _, _, rfl, by simp [trailingWords], by simp [trailingSamples], by
      simp [decode, unlessReserved_clear]⟩
  | queue x =>
    exact ⟨_, _, _, rfl, by simp [trailingWords], trailingSamples_formatL (.inl rfl) hwf, by
      simp [decode, unlessReserved_clear]⟩
  | enqraw x =>
    exact ⟨_, _, _, rfl, by simp [trailingWords], trailingSamples_formatL (.inr rfl) hwf, by
      simp [decode, unlessReserved_clear]⟩

/-- The ports hold the command first, whatever stands behind it. -/
theorem EncodedAs.takeFrame_encode {i : Instr} {w : Word} {ds : List Word} {x : List Sample}
    (h : EncodedAs i w ds x) (cs : List Word) (xs : List Sample) :
    takeFrame ((encode i).cmd ++ cs) ((encode i).samples ++ xs) =
      some { frame := { word := w, data := ds.headD 0#32, payload := x }, cmdRest := cs, sampleRest := xs } := by
  rw [h.ports]
  exact takeFrame_exact h.words h.samples cs xs

/-- A command is read back from its port words. -/
theorem EncodedAs.decodePorts_encode {i : Instr} {w : Word} {ds : List Word} {x : List Sample}
    (h : EncodedAs i w ds x) : decodePorts (encode i) = some i := by
  have htake := h.takeFrame_encode [] []
  rw [List.append_nil, List.append_nil] at htake
  have hfills : (encode i).fills = [] := by rw [h.ports]
  simp only [decodePorts, hfills, htake, h.decodes]
  rfl

/-- Settles O1: FILL is its own request, and a command the frame of its encoding. -/
theorem decodeOfEncode : Obligations.DecodeOfEncode := by
  unfold Obligations.DecodeOfEncode
  intro i hwf
  refine ⟨?_, fun hfills cs xs => ?_⟩
  · cases hfills : (encode i).fills with
    | nil =>
      obtain ⟨_, _, _, henc⟩ := encodedAs_of_wellFormed hwf hfills
      exact henc.decodePorts_encode
    | cons k ks =>
      cases i with
      | fill k => rfl
      | _ => cases hfills
  · obtain ⟨_, _, _, henc⟩ := encodedAs_of_wellFormed hwf hfills
    exact ⟨_, henc.takeFrame_encode cs xs, henc.decodes⟩

/-! ## From the word to its fields -/

/-- The bits of a field that is 0 are 0. -/
theorem bit_of_extract_eq_zero {w : Word} {lo len i : Nat} (h : w.extractLsb' lo len = 0#len) (hlo : lo ≤ i)
    (hhi : i < lo + len) : w.getLsbD i = false := by
  have hbit := congrArg (fun v => v.getLsbD (i - lo)) h
  have hlt : i - lo < len := by omega
  simpa [hlt, Nat.add_sub_cancel' hlo] using hbit

/-- The bits from 28 on are those of OP (30_encoding.md R80). -/
theorem opcode_bit_sub {w : Word} {i : Nat} (hlo : 28 ≤ i) (hhi : i < 32) :
    (opcode w).getLsbD (i - 28) = w.getLsbD i := by
  rw [opcode_bit _ _ (by omega), Nat.add_sub_cancel' hlo]

theorem formatN_opcode {w : Word} (h : w &&& reservedN = 0#32) : formatN (opcode w) = w := by
  rw [reservedN_clear_iff] at h
  apply BitVec.eq_of_getLsbD_eq
  intro i hi
  rw [formatN_bit]
  split_ifs with hzero
  · exact (bit_of_extract_eq_zero h (by omega) (by omega)).symm
  · exact opcode_bit_sub (by omega) hi

theorem formatB_fields {w : Word} (h : w &&& reservedB = 0#32) : formatB (opcode w) (fieldF w) = w := by
  rw [reservedB_clear_iff] at h
  apply BitVec.eq_of_getLsbD_eq
  intro i hi
  rw [formatB_bit]
  split_ifs with hfield hzero
  · rw [fieldF, show i = 0 by omega]
  · exact (bit_of_extract_eq_zero h (by omega) (by omega)).symm
  · exact opcode_bit_sub (by omega) hi

theorem formatL_fields {w : Word} (h : w &&& reservedL = 0#32) : formatL (opcode w) (fieldN w) = w := by
  rw [reservedL_clear_iff] at h
  apply BitVec.eq_of_getLsbD_eq
  intro i hi
  rw [formatL_bit]
  split_ifs with hfield hzero
  · exact fieldN_bit w i hfield
  · exact (bit_of_extract_eq_zero h (by omega) (by omega)).symm
  · exact opcode_bit_sub (by omega) hi

theorem formatS_fields {w : Word} (h : w &&& reservedS = 0#32) : formatS (opcode w) (fieldM w) = w := by
  rw [reservedS_clear_iff] at h
  apply BitVec.eq_of_getLsbD_eq
  intro i hi
  rw [formatS_bit]
  split_ifs with hfield hzero
  · exact fieldM_bit w i hfield
  · exact (bit_of_extract_eq_zero h (by omega) (by omega)).symm
  · exact opcode_bit_sub (by omega) hi

theorem formatA_fields {w : Word} (h : w &&& reservedA = 0#32) : formatA (opcode w) (fieldAddr w) = w :=
  formatS_fields h

theorem formatH_fields {w : Word} (h : w &&& reservedH = 0#32) :
    formatH (opcode w) (fieldQ w) (fieldRate w) = w := by
  rw [reservedH_clear_iff] at h
  apply BitVec.eq_of_getLsbD_eq
  intro i hi
  rw [formatH_bit]
  split_ifs with hzero hrate hq
  · exact (bit_of_extract_eq_zero h (by omega) (by omega)).symm
  · rw [fieldRate_bit _ _ (by omega), Nat.add_sub_cancel' (by omega)]
  · rw [fieldQ_bit _ _ (by omega), Nat.add_sub_cancel' (by omega)]
  · exact opcode_bit_sub (by omega) hi

/-! ## From the frame to the instruction -/

/-- The words of a frame on the command port (30_encoding.md R90). -/
def frameWords (f : Frame) : List Word := f.word :: (if trailingWords f.word = 0 then [] else [f.data])

/-- A frame of one word only: its port words. -/
theorem encode_plain {f : Frame} {i : Instr} {op : BitVec 4} (hlen : f.payload.length = trailingSamples f.word)
    (hop : opcode f.word = op) (h : op ≠ 0xA#4 ∧ op ≠ 0x4#4 ∧ op ≠ 0xC#4)
    (hencode : encode i = Sys2Proof.oneWord f.word) :
    encode i = { cmd := frameWords f, samples := f.payload, fills := [] } := by
  obtain ⟨hwords, hsamples⟩ := trailing_of_plain hop h
  have hpayload : f.payload = [] := List.eq_nil_of_length_eq_zero (hlen.trans hsamples)
  rw [hencode, frameWords, if_pos hwords, hpayload, Sys2Proof.oneWord]

/-- The word of a payload command is that of its length. -/
theorem formatL_of_payload {f : Frame} {op : BitVec 4} (hlen : f.payload.length = trailingSamples f.word)
    (hop : opcode f.word = op) (h : op = 0x4#4 ∨ op = 0xC#4) (hclear : f.word &&& reservedL = 0#32) :
    formatL op (BitVec.ofNat 16 f.payload.length) = f.word := by
  have hn : f.payload.length = (fieldN f.word).toNat := by
    rw [hlen, trailingSamples, hop, if_pos h]
  rw [hn, BitVec.ofNat_toNat, BitVec.setWidth_eq, ← hop, formatL_fields hclear]

/-- What decodes is encoded again by the words of its frame: no bit of them is dropped. -/
theorem encode_of_decode {f : Frame} {i : Instr} (hlen : f.payload.length = trailingSamples f.word)
    (h : decode f = .ok i) : encode i = { cmd := frameWords f, samples := f.payload, fills := [] } := by
  unfold decode at h
  split at h
  case h_13 => cases h
  all_goals
    rename_i hop
    obtain ⟨hclear, rfl⟩ := unlessReserved_eq_ok.1 h
  case h_1 | h_8 =>
    refine encode_plain hlen hop (by decide) ?_
    rw [encode, ← hop, formatB_fields hclear]
  case h_2 | h_3 | h_6 | h_7 =>
    refine encode_plain hlen hop (by decide) ?_
    rw [encode, ← hop, formatN_opcode hclear]
  case h_5 =>
    refine encode_plain hlen hop (by decide) ?_
    rw [encode, ← hop, formatS_fields hclear]
  case h_9 =>
    refine encode_plain hlen hop (by decide) ?_
    rw [encode, ← hop, formatH_fields hclear]
  case h_11 =>
    refine encode_plain hlen hop (by decide) ?_
    rw [encode, ← hop, formatA_fields hclear]
  case h_10 =>
    have hpayload : f.payload = [] :=
      List.eq_nil_of_length_eq_zero (by rw [hlen, trailingSamples, hop]; rfl)
    rw [encode, frameWords, trailingWords, if_pos hop, ← hop, formatA_fields hclear, hpayload]
    rfl
  case h_4 =>
    rw [encode, formatL_of_payload hlen hop (.inl rfl) hclear, frameWords, trailingWords, hop]
    rfl
  case h_12 =>
    rw [encode, formatL_of_payload hlen hop (.inr rfl) hclear, frameWords, trailingWords, hop]
    rfl

/-- A command has at most one trailing word (30_encoding.md R90). -/
theorem trailingWords_cases (w : Word) : trailingWords w = 0 ∨ trailingWords w = 1 := by
  unfold trailingWords
  split_ifs
  · exact .inr rfl
  · exact .inl rfl

/-- What a frame takes off the ports: its words and its payload, whose length its word announces. -/
theorem takeFrame_takes {cmd : List Word} {smp : List Sample} {t : Framed} (h : takeFrame cmd smp = some t) :
    cmd = frameWords t.frame ++ t.cmdRest ∧ smp = t.frame.payload ++ t.sampleRest ∧
      t.frame.payload.length = trailingSamples t.frame.word := by
  cases cmd with
  | nil => cases h
  | cons w rest =>
    obtain ⟨⟨hw, hs⟩, rfl⟩ := takeFrame_cons_eq_some_iff.1 h
    refine ⟨?_, (List.take_append_drop _ _).symm, List.length_take_of_le hs⟩
    rw [frameWords]
    obtain h0 | h1 := trailingWords_cases w
    · simp [h0]
    · cases rest with
      | nil => simp [h1] at hw
      | cons v rest => simp [h1]

/-- Settles O2: the frame's words are those of its instruction. -/
theorem encodeOfDecode : Obligations.EncodeOfDecode := by
  unfold Obligations.EncodeOfDecode
  intro cmd smp t i ht hd
  obtain ⟨hcmd, hsmp, hlen⟩ := takeFrame_takes ht
  rw [encode_of_decode hlen hd]
  exact ⟨decode_wellFormed (takeFrame_payloadFits ht) hd, hcmd, hsmp⟩

/-- Settles O5, by evaluation of the decoder on each word. -/
theorem sampleWordsDecode : Obligations.SampleWordsDecode := by
  unfold Obligations.SampleWordsDecode
  decide

end Sys2Proof.Machine
end

section
/-! PROOFS. The accepted QUEUE written out (41_resampler.md R130 to R141), and the no-ops of NULLSINK and of the
empty QUEUE (44_engine_control.md R190; 41_resampler.md R130; 40_ring_buffer.md R112, R118). -/

namespace Sys2Proof.Machine

/-! ## The snapshot step in the words of R130 -/

/-- RATIO_CLAMP is raised where the clamp of R134 acted. -/
theorem correction_ratioClamped_iff (p : Params) (c : Csrs) (fq n1 : Nat) :
    (correction p c fq n1).ratioClamped = true ↔
      fq < c.targetLow.toNat ∧ (correction p c fq n1).ratio ≠ c.rawRatio (c.targetLow.toNat - fq) := by
  simp only [correction, Bool.and_eq_true, decide_eq_true_eq]
  rfl

/-- OUTREQ_CLAMP is raised where more than OUT_MAX samples are wanted (R135). -/
theorem correction_oreqClamped_iff (p : Params) (c : Csrs) (fq n1 : Nat) :
    (correction p c fq n1).oreqClamped = true ↔
      p.outMax <
        if fq < c.targetLow.toNat then n1 + (c.targetLow.toNat - fq) * c.scale.toNat else n1 := by
  simp [correction, Csrs.correctionStep]

/-- The output block of a legal build, its length taken first (R139, R141, R153). -/
theorem outputBlock_eq {p : Params} (hl : p.Legal) (muted : Bool) (ys : List Binary32) :
    outputBlock p muted ys =
      (ys.take (min ys.length p.outMax)).map fun y => if muted = true then 0#16 else sat16 y := by
  obtain ⟨_, _, _, _, _, _, hbits⟩ := hl
  rw [min_comm, ← List.take_eq_take_min, outputBlock, hbits]
  rfl

/-- Settles O35: the snapshot step's record, with each value of R133 to R141 brought to the model's. In `Settled`,
since the model's own `queueCommand` has the name in `Machine`. -/
theorem Settled.queueCommand : Obligations.QueueCommand := by
  unfold Obligations.QueueCommand
  intro s x hlife hl _ hx hlen c xd n1 fq low raw ratio want oreq made g block
  obtain ⟨_, _, k, made', rfl, rfl, hk, hmade, heq⟩ := queueSnapshot_eq Config.src x s
  have hratio : k.ratio = ratio := by rw [hk]; rfl
  have horeq : k.oreq = oreq := by rw [hk, correction_oreq]; rfl
  have hratioClamped : k.ratioClamped = true ↔ fq < low ∧ ratio ≠ raw := by
    rw [← hratio, hk, correction_ratioClamped_iff]; rfl
  have horeqClamped : k.oreqClamped = true ↔ s.params.outMax < want := by
    rw [hk, correction_oreqClamped_iff]; rfl
  have hsrc : made' = made := by rw [hmade, hratio, horeq]
  have hblock : outputBlock s.params s.csr.muted made.2 = block := outputBlock_eq hl _ _
  have hg : min s.params.outMax made.2.length = g := min_comm _ _
  rw [exec_queue_accepted hlife hx hlen, heq, hratio, horeq, hsrc, hblock, hg]
  simp only [hratioClamped, horeqClamped]
  rfl

/-! ## The no-ops -/

theorem queueCommand_nullsink {conv : Converter} {x : List Sample} {s : State} (h : s.csr.life = .nullsink) :
    queueCommand conv x s = s := if_pos h

theorem enqrawCommand_nullsink {x : List Sample} {s : State} (h : s.csr.life = .nullsink) :
    enqrawCommand x s = s := if_pos h

/-- A QUEUE of no samples does nothing, in either open lifecycle state (41_resampler.md R130). -/
theorem queueCommand_nil (conv : Converter) (s : State) : queueCommand conv [] s = s := by
  unfold queueCommand
  split_ifs with hnull hlong hempty
  · rfl
  · exact absurd hlong (Nat.not_lt_zero _)
  · rfl
  · exact absurd rfl hempty

/-- Settles O16: past the lifecycle check each command's own no-op, and FILL's silence. -/
theorem nullSinkAndEmptyQueueNoOps : Obligations.NullSinkAndEmptyQueueNoOps := by
  unfold Obligations.NullSinkAndEmptyQueueNoOps
  intro s
  refine ⟨fun hnull => ?_, fun hopen => ?_⟩
  · have hopen : s.csr.life ≠ .closed := by simp [hnull]
    refine ⟨fun x => ?_, fun x => ?_, fun k => ?_⟩
    · rw [exec_queue_of_open x hopen, queueCommand_nullsink hnull]
    · rw [exec_eq, effect_enqraw, State.unlessClosed_of_open _ _ hopen, enqrawCommand_nullsink hnull]
    · rw [exec_eq, effect_fill, fillRequest_silent (.inl (by simp [hnull])), State.deliver]
  · rw [exec_queue_of_open [] hopen, queueCommand_nil]

end Sys2Proof.Machine
end

section
/-! PROOFS. The invariant of the machine: it holds at reset, and every step and every move of the host keeps it
(10_state.md sections 3 and 4; 20_memory.md R60; 42_frame_pacer.md R167). -/

namespace Sys2Proof.Machine

/-! ## What the invariant depends on -/

/-- The invariant reads the parameters, the registers, the store and the phase. -/
theorem State.Inv.congr {s t : State} (hparams : t.params = s.params) (hcsr : t.csr = s.csr)
    (hstore : t.store = s.store) (hphase : t.phase = s.phase) (h : s.Inv) : t.Inv := by
  unfold State.Inv State.RingInv State.ConfigInv State.RatioInv State.PacerInv State.PhaseInv State.StoreInv
  rw [hparams, hcsr, hstore, hphase]
  exact h

/-- Taking words off the ports keeps the invariant. -/
theorem SameMachine.inv {s u : State} (hu : SameMachine s u) (h : s.Inv) : u.Inv :=
  h.congr hu.params hu.csr hu.store hu.phase

/-- Settles O57: the host's moves write the ports only. -/
theorem hostMovesKeepTheInvariant : Obligations.HostMovesKeepTheInvariant := by
  unfold Obligations.HostMovesKeepTheInvariant
  intro s p n h
  refine ⟨h.congr rfl rfl rfl rfl, h.congr rfl rfl rfl rfl, fun v t ht => ?_⟩
  unfold State.takeResponse at ht
  split at ht
  · cases ht
  · obtain ⟨-, rfl⟩ := Prod.mk.inj (Option.some.inj ht)
    exact h.congr rfl rfl rfl rfl

/-! ## The phase (10_state.md R50) -/

theorem State.PhaseInv.of_idle {s : State} (h : s.phase = .idle) : s.PhaseInv := by
  intro hwaiting
  rw [h] at hwaiting
  cases hwaiting

/-- A block that has just begun to wait. -/
theorem State.PhaseInv.of_block {s : State} {block : List Sample} (hlife : s.csr.life = .active)
    (hphase : s.phase = .enqWait block 0) (hne : block ≠ []) (hlen : block.length ≤ s.params.outMax) :
    s.PhaseInv := by
  intro _
  rw [hphase]
  exact ⟨hlife, List.length_pos_iff.2 hne, hlen, Nat.zero_le _⟩

/-- A FILL leaves all that the invariant of a waiting block speaks of. -/
theorem fillRequest_phaseInv {s : State} (h : s.PhaseInv) (k : Nat) : (fillRequest k s).PhaseInv := by
  unfold State.PhaseInv
  rw [fillRequest_phase, fillRequest_params, fillRequest_waitMax, (fillRequest_frame k s).mode.life]
  exact h

/-- A poll is counted only below WAIT_MAX, and a commit ends the wait (40_ring_buffer.md R115). -/
theorem State.enqueueStep_phaseInv {s : State} (h : s.PhaseInv) : s.enqueueStep.PhaseInv := by
  obtain ⟨_, hidle⟩ | ⟨block, polls, hphase, ⟨_, hcommit⟩ | ⟨_, hlt, hpoll⟩ | ⟨_, _, htimeout⟩⟩ :=
    s.enqueueStep_cases
  · rwa [hidle]
  · rw [hcommit]; exact .of_idle (s.commit_phase block)
  · unfold State.PhaseInv at h
    rw [hphase] at h
    obtain ⟨hlife, hne, hlen, _⟩ := h rfl
    rw [hpoll]
    exact fun _ => ⟨hlife, hne, hlen, hlt⟩
  · rw [htimeout]; exact .of_idle (State.commit_phase _ block)

theorem life_active_of_open {s : State} (hopen : s.csr.life ≠ .closed) (hnull : s.csr.life ≠ .nullsink) :
    s.csr.life = .active := by
  cases h : s.csr.life with
  | closed => exact absurd h hopen
  | active => rfl
  | nullsink => exact absurd h hnull

/-- The converted block waits in ACTIVE with at most OUT_MAX samples, unless it is empty (41_resampler.md R130). -/
theorem queueSnapshot_phaseInv (conv : Converter) (x : List Sample) {s : State} (hidle : s.phase = .idle)
    (hlife : s.csr.life = .active) : (queueSnapshot conv x s).PhaseInv := by
  have hphase := queueSnapshot_phase conv x s
  by_cases hempty : s.queueBlock conv x = []
  · rw [if_pos hempty] at hphase
    exact .of_idle (hphase.trans hidle)
  · rw [if_neg hempty] at hphase
    refine .of_block ((queueSnapshot_frame conv x s).mode.life.trans hlife) hphase hempty ?_
    rw [queueSnapshot_params, State.queueBlock, outputBlock_length]
    exact Nat.min_le_left _ _

theorem queueCommand_phaseInv (conv : Converter) (x : List Sample) {s : State} (hidle : s.phase = .idle)
    (hopen : s.csr.life ≠ .closed) : (queueCommand conv x s).PhaseInv := by
  unfold queueCommand
  split_ifs with hnull
  · exact .of_idle hidle
  · exact .of_idle hidle
  · exact .of_idle hidle
  · exact queueSnapshot_phaseInv conv x hidle (life_active_of_open hopen hnull)

/-- The raw block waits in ACTIVE with 1 to OUT_MAX samples (40_ring_buffer.md R118). -/
theorem enqrawCommand_phaseInv (x : List Sample) {s : State} (hidle : s.phase = .idle)
    (hopen : s.csr.life ≠ .closed) : (enqrawCommand x s).PhaseInv := by
  unfold enqrawCommand
  split_ifs with hnull hlong hempty
  · exact .of_idle hidle
  · exact .of_idle hidle
  · exact .of_idle hidle
  · exact .of_block (life_active_of_open hopen hnull) rfl (by simpa using hempty) (Nat.le_of_not_lt hlong)

/-- The phase stays IDLE behind the lifecycle check. -/
theorem State.unlessClosed_idle {s t : State} (hs : s.phase = .idle) (ht : t.phase = .idle) :
    (s.unlessClosed t).phase = .idle :=
  State.unlessClosed_of (P := fun u => u.phase = .idle) hs ht

/-- An instruction other than QUEUE and ENQRAW leaves the producer IDLE (10_state.md R50). -/
theorem effect_phase_of_idle {i : Instr} {s : State} (hidle : s.phase = .idle) :
    (effect i s).phase = .idle ∨ (∃ x, i = .queue x) ∨ ∃ x, i = .enqraw x := by
  cases i with
  | queue x => exact .inr (.inl ⟨x, rfl⟩)
  | enqraw x => exact .inr (.inr ⟨x, rfl⟩)
  | openDev f => exact .inl rfl
  | close => exact .inl hidle
  | fill k => exact .inl ((fillRequest_phase k.toNat s).trans hidle)
  | pause | unpause | setmute => exact .inl (State.unlessClosed_idle hidle hidle)
  | tick => exact .inl (State.unlessClosed_idle hidle (by rw [tickCommand_eq]; exact hidle))
  | setspeed m =>
    refine .inl (State.unlessClosed_idle hidle ?_)
    unfold setspeedCommand
    split_ifs <;> exact hidle
  | rehash q rate =>
    refine .inl (State.unlessClosed_idle hidle ?_)
    unfold rehashCommand
    split_ifs <;> exact hidle
  | csrw a v =>
    refine .inl (State.unlessClosed_idle hidle ?_)
    obtain h | ⟨_, h⟩ | ⟨r, h⟩ := s.writeCsr_cases a v <;> rw [h] <;> exact hidle
  | csrr a =>
    refine .inl ?_
    obtain ⟨v, h⟩ | h := s.readCsr_cases a <;> rw [effect_csrr, h] <;> exact hidle

/-- Every instruction keeps the phase's invariant: a command runs in IDLE only, a FILL leaves the phase. -/
theorem effect_phaseInv {i : Instr} {s : State} (h : s.PhaseInv) (hi : s.phase = .idle ∨ ∃ k, i = .fill k) :
    (effect i s).PhaseInv := by
  obtain hidle | ⟨k, rfl⟩ := hi
  · by_cases hclosed : s.csr.life = .closed ∧ Instr.allowedInClosed i = false
    · obtain ⟨hc, ha⟩ := hclosed
      rw [effect_refused hc ha]
      exact .of_idle hidle
    · obtain hidle' | ⟨x, rfl⟩ | ⟨x, rfl⟩ := effect_phase_of_idle (i := i) hidle
      · exact .of_idle hidle'
      · have hopen : s.csr.life ≠ .closed := fun hc => hclosed ⟨hc, rfl⟩
        rw [effect_queue, State.unlessClosed_of_open _ _ hopen]
        exact queueCommand_phaseInv _ x hidle hopen
      · have hopen : s.csr.life ≠ .closed := fun hc => hclosed ⟨hc, rfl⟩
        rw [effect_enqraw, State.unlessClosed_of_open _ _ hopen]
        exact enqrawCommand_phaseInv x hidle hopen
  · exact fillRequest_phaseInv h k.toNat

/-! ## The store (20_memory.md R60) -/

theorem State.StoreInv.congr {s t : State} (hparams : t.params = s.params) (hstore : t.store = s.store)
    (h : s.StoreInv) : t.StoreInv := by
  unfold State.StoreInv
  rw [hparams, hstore]
  exact h

/-- No instruction writes the store: only a commit does. -/
theorem effect_store (i : Instr) (s : State) : (effect i s).store = s.store := by
  obtain hring | ⟨k, rfl⟩ | ⟨f, rfl⟩ := effect_sameRing i s
  · exact hring.store
  · rw [effect_fill]
    unfold fillRequest
    split_ifs
    · rfl
    · exact s.dequeue_store k.toNat
  · rfl

theorem State.commit_storeInv {s : State} (hl : s.params.Legal) (h : s.StoreInv) (block : List Sample) :
    (s.commit block).StoreInv := by
  obtain ⟨hwf, hbound⟩ := h
  obtain ⟨hcap, _⟩ := hl
  unfold State.StoreInv
  rw [State.commit_store, State.commit_params]
  exact ⟨Store.wf_writeBlock _ _ _ _ hwf, Store.bounded_writeBlock _ _ _ _ hcap hbound⟩

theorem State.enqueueStep_storeInv {s : State} (hl : s.params.Legal) (h : s.StoreInv) :
    s.enqueueStep.StoreInv := by
  obtain hring | ⟨_, r, block, hring, heq⟩ := s.enqueueStep_ring
  · exact h.congr hring.params hring.store
  · rw [heq]
    exact State.commit_storeInv (by rwa [hring.params]) (h.congr hring.params hring.store) block

/-! ## REMAINDER (10_state.md R44) -/

theorem State.PacerInv.of_samePacer {s t : State} (hsame : SamePacer s t) (h : s.PacerInv) : t.PacerInv := by
  unfold State.PacerInv
  rw [hsame.remainder, hsame.effRefresh]
  exact h

/-- A REMAINDER of 0 is legal with every EFF_REFRESH. -/
theorem State.PacerInv.of_remainder_zero {s : State} (h : s.csr.remainder = 0#16) : s.PacerInv := by
  refine ⟨fun hne => ?_, fun _ => h⟩
  rw [h, BitVec.lt_def]
  exact Nat.pos_of_ne_zero fun h0 => hne (BitVec.eq_of_toNat_eq h0)

theorem tickCommand_pacerInv {s : State} (hc : s.ConfigInv) (h : s.PacerInv) : (tickCommand s).PacerInv := by
  have hlt := tickCommand_remainder_lt (h.start_lt hc)
  refine ⟨fun _ => hlt, fun h0 => ?_⟩
  rw [h0] at hlt
  exact absurd hlt BitVec.not_lt_zero

theorem effect_pacerInv {s : State} (hc : s.ConfigInv) (h : s.PacerInv) (i : Instr) :
    (effect i s).PacerInv := by
  obtain hsame | rfl | ⟨hzero, _⟩ := effect_pacer_cases i s
  · exact h.of_samePacer hsame
  · exact State.unlessClosed_of h (tickCommand_pacerInv hc h)
  · exact .of_remainder_zero hzero

/-! ## The configuration and RATIO (10_state.md R24, R36) -/

/-- What the invariant says of the registers that configure the block, and of RATIO. -/
abbrev State.SettingsInv (s : State) : Prop := s.ConfigInv ∧ s.RatioInv

theorem State.dequeue_settingsInv {s : State} (h : s.SettingsInv) (k : Nat) : (s.dequeue k).SettingsInv := by
  rw [State.dequeue_eq]
  exact h

theorem State.commit_settingsInv {s : State} (h : s.SettingsInv) (block : List Sample) :
    (s.commit block).SettingsInv := by
  rw [State.commit_eq]
  exact h

theorem State.enqueueStep_settingsInv {s : State} (h : s.SettingsInv) : s.enqueueStep.SettingsInv := by
  obtain ⟨_, hidle⟩ | ⟨block, polls, _, ⟨_, hcommit⟩ | ⟨_, _, hpoll⟩ | ⟨_, _, htimeout⟩⟩ :=
    s.enqueueStep_cases
  · rwa [hidle]
  · rw [hcommit]; exact State.commit_settingsInv h block
  · rw [hpoll]; exact h
  · rw [htimeout]; exact State.commit_settingsInv (s := s.raise .waitTimeout) h block

theorem fillRequest_settingsInv {s : State} (h : s.SettingsInv) (k : Nat) :
    (fillRequest k s).SettingsInv := by
  unfold fillRequest
  split_ifs
  · exact h
  · exact State.dequeue_settingsInv h k

theorem tickCommand_settingsInv {s : State} (h : s.SettingsInv) : (tickCommand s).SettingsInv := by
  rw [tickCommand_eq]
  exact h

/-- QUEUE writes RATIO alone of these registers, and the correction keeps it in range (41_resampler.md R134). -/
theorem queueSnapshot_settingsInv (conv : Converter) (x : List Sample) {s : State} (h : s.SettingsInv) :
    (queueSnapshot conv x s).SettingsInv := by
  obtain ⟨hconfig, _⟩ := h
  refine ⟨?_, ?_⟩
  · obtain ⟨_, _, _, _, _, _, _, _, heq⟩ := queueSnapshot_eq conv x s
    rw [heq]
    exact hconfig
  · unfold State.RatioInv
    rw [queueSnapshot_ratio_toNat]
    exact correction_ratio_bounds _ _ _ _

theorem queueCommand_settingsInv (conv : Converter) (x : List Sample) {s : State} (h : s.SettingsInv) :
    (queueCommand conv x s).SettingsInv := by
  unfold queueCommand
  split_ifs
  · exact h
  · exact h
  · exact h
  · exact queueSnapshot_settingsInv conv x h

theorem enqrawCommand_settingsInv (x : List Sample) {s : State} (h : s.SettingsInv) :
    (enqrawCommand x s).SettingsInv := by
  unfold enqrawCommand
  split_ifs <;> exact h

/-- REHASH writes NATIVE_RATE only with a rate that is not 0 (41_resampler.md R150). -/
theorem rehashCommand_settingsInv (q : BitVec 4) (rate : BitVec 20) {s : State} (h : s.SettingsInv) :
    (rehashCommand q rate s).SettingsInv := by
  unfold rehashCommand
  split_ifs with hbad
  · exact h
  · obtain ⟨hrate, _⟩ := not_or.1 hbad
    obtain ⟨⟨hspc, hmaxocc, hch, hchMax, _, hrest⟩, hratio⟩ := h
    exact ⟨⟨hspc, hmaxocc, hch, hchMax, hrate, hrest⟩, hratio⟩

/-- SETSPEED writes FRAME_MULT and DECIM only with a multiplier that is not 0 (43_speed_controller.md R180). -/
theorem setspeedCommand_settingsInv (m : BitVec 8) {s : State} (h : s.SettingsInv) :
    (setspeedCommand m s).SettingsInv := by
  unfold setspeedCommand
  split_ifs with hm
  · exact h
  · obtain ⟨⟨hspc, hmaxocc, hch, hchMax, hrate, hfallback, _⟩, hratio⟩ := h
    exact ⟨⟨hspc, hmaxocc, hch, hchMax, hrate, hfallback, hm, hm⟩, hratio⟩

theorem State.readCsr_settingsInv {s : State} (h : s.SettingsInv) (a : BitVec 8) :
    (s.readCsr a).SettingsInv := by
  obtain ⟨v, heq⟩ | heq := s.readCsr_cases a <;> rw [heq] <;> exact h

/-- A value of at least 1 that fits the field is not 0 in it. -/
theorem truncate_ne_zero {n : Nat} {v : Word} (hpos : 1 ≤ v.toNat) (hfits : v.toNat < 2 ^ n) :
    v.truncate n ≠ 0#n := by
  intro h
  have hzero := congrArg BitVec.toNat h
  rw [BitVec.truncate, BitVec.toNat_setWidth, Nat.mod_eq_of_lt hfits, BitVec.toNat_zero] at hzero
  omega

/-- A legal value of a read-write register keeps the configuration legal: each range of 10_state.md R24 leaves
out the 0 of a divisor, and CHANNELS is at most CH_MAX. -/
theorem RwCsr.set_settingsInv {s : State} {r : RwCsr} {v : Word} (hl : s.params.Legal)
    (hlegal : r.legal s.params v = true) (h : s.SettingsInv) :
    State.SettingsInv { s with csr := r.set v s.csr } := by
  obtain ⟨hlow, hhigh⟩ := (r.legal_iff s.params v).1 hlegal
  obtain ⟨⟨hspc, hmaxocc, hch, hchMax, hrate, hfallback, hmult, hdecim⟩, hratio⟩ := h
  obtain ⟨_, _, _, _, _, hch15, _⟩ := hl
  cases r with
  | spc =>
    exact ⟨⟨truncate_ne_zero hlow (Nat.lt_succ_of_le hhigh), hmaxocc, hch, hchMax, hrate, hfallback, hmult,
      hdecim⟩, hratio⟩
  | maxocc =>
    exact ⟨⟨hspc, truncate_ne_zero hlow (Nat.lt_succ_of_le hhigh), hch, hchMax, hrate, hfallback, hmult,
      hdecim⟩, hratio⟩
  | channels =>
    have hfits : v.toNat < 2 ^ 4 := Nat.lt_succ_of_le (hhigh.trans hch15)
    have hle : (v.truncate 4).toNat ≤ s.params.chMax := by
      rw [BitVec.truncate, BitVec.toNat_setWidth, Nat.mod_eq_of_lt hfits]
      exact hhigh
    exact ⟨⟨hspc, hmaxocc, truncate_ne_zero hlow hfits, hle, hrate, hfallback, hmult, hdecim⟩, hratio⟩
  | refreshFallback =>
    exact ⟨⟨hspc, hmaxocc, hch, hchMax, hrate, truncate_ne_zero hlow (Nat.lt_succ_of_le hhigh), hmult,
      hdecim⟩, hratio⟩
  | frameMult =>
    exact ⟨⟨hspc, hmaxocc, hch, hchMax, hrate, hfallback, truncate_ne_zero hlow (Nat.lt_succ_of_le hhigh),
      hdecim⟩, hratio⟩
  | decim =>
    exact ⟨⟨hspc, hmaxocc, hch, hchMax, hrate, hfallback, hmult,
      truncate_ne_zero hlow (Nat.lt_succ_of_le hhigh)⟩, hratio⟩
  | _ => exact ⟨⟨hspc, hmaxocc, hch, hchMax, hrate, hfallback, hmult, hdecim⟩, hratio⟩

theorem State.writeCsr_settingsInv {s : State} (hl : s.params.Legal) (h : s.SettingsInv) (a : BitVec 8)
    (v : Word) : (s.writeCsr a v).SettingsInv := by
  by_cases hrw : a ∈ rwCsrs.map RwCsr.addr
  · obtain ⟨r, _, rfl⟩ := List.mem_map.1 hrw
    by_cases hlegal : r.legal s.params v = true
    · rw [State.writeCsr_legal hlegal]
      exact RwCsr.set_settingsInv hl hlegal h
    · rw [State.writeCsr_illegal hlegal]
      exact h
  · by_cases he : a = 0x06#8
    · rw [he, State.writeCsr_events]
      exact h
    · rw [State.writeCsr_readOnly he hrw]
      exact h

/-- The reset column of 10_state.md R24 has no 0 in a divisor, and its RATIO is 1.0. -/
theorem Csrs.reset_legal :
    Csrs.reset.spc ≠ 0#16 ∧ Csrs.reset.maxocc ≠ 0#8 ∧ Csrs.reset.channels ≠ 0#4 ∧
      Csrs.reset.nativeRate ≠ 0#20 ∧ Csrs.reset.refreshFallback ≠ 0#16 ∧ Csrs.reset.frameMult ≠ 0#8 ∧
      Csrs.reset.decim ≠ 0#8 ∧ 1 ≤ Csrs.reset.ratio.toNat ∧ Csrs.reset.ratio.toNat ≤ 131071 := by
  decide

/-- The reset values, which OPEN writes again, are legal in every legal build: each has CH_MAX at least 1. -/
theorem State.settingsInv_of_reset {s : State} {l : Life} (hl : s.params.Legal)
    (hcsr : s.csr = { Csrs.reset with life := l }) : s.SettingsInv := by
  obtain ⟨_, _, _, _, hchMax, _⟩ := hl
  obtain ⟨hspc, hmaxocc, hch, hrate, hfallback, hmult, hdecim, hratio⟩ := Csrs.reset_legal
  unfold State.SettingsInv State.ConfigInv State.RatioInv
  rw [hcsr]
  exact ⟨⟨hspc, hmaxocc, hch, hchMax, hrate, hfallback, hmult, hdecim⟩, hratio⟩

/-- Every instruction keeps the configuration legal and RATIO in range. -/
theorem effect_settingsInv {s : State} (hl : s.params.Legal) (h : s.SettingsInv) (i : Instr) :
    (effect i s).SettingsInv := by
  have refused : (s.raise .badCmd).SettingsInv := h
  cases i with
  | openDev f => exact State.settingsInv_of_reset (s := effect (.openDev f) s) hl rfl
  | close => exact h
  | pause | unpause | setmute => exact State.unlessClosed_of refused h
  | tick => exact State.unlessClosed_of refused (tickCommand_settingsInv h)
  | queue x => exact State.unlessClosed_of refused (queueCommand_settingsInv _ x h)
  | setspeed m => exact State.unlessClosed_of refused (setspeedCommand_settingsInv m h)
  | rehash q rate => exact State.unlessClosed_of refused (rehashCommand_settingsInv q rate h)
  | csrw a v => exact State.unlessClosed_of refused (s.writeCsr_settingsInv hl h a v)
  | csrr a => exact s.readCsr_settingsInv h a
  | enqraw x => exact State.unlessClosed_of refused (enqrawCommand_settingsInv x h)
  | fill k => exact fillRequest_settingsInv h k.toNat

/-! ## The whole invariant -/

/-- A wait step keeps the invariant. -/
theorem State.enqueueStep_inv {s : State} (h : s.Inv) : s.enqueueStep.Inv := by
  obtain ⟨hl, hring, hconfig, hratio, hpacer, hphase, hstore⟩ := h
  obtain ⟨hconfig', hratio'⟩ := State.enqueueStep_settingsInv ⟨hconfig, hratio⟩
  exact ⟨by rwa [State.enqueueStep_params], State.enqueueStep_ringInv hl hring, hconfig', hratio',
    hpacer.of_samePacer s.enqueueStep_samePacer, State.enqueueStep_phaseInv hphase,
    State.enqueueStep_storeInv hl hstore⟩

/-- Every instruction keeps the invariant where a step can run it: a command in IDLE, a FILL at any time. -/
theorem effect_inv {i : Instr} {s : State} (h : s.Inv) (hi : s.phase = .idle ∨ ∃ k, i = .fill k) :
    (effect i s).Inv := by
  obtain ⟨hl, hring, hconfig, hratio, hpacer, hphase, hstore⟩ := h
  obtain ⟨hconfig', hratio'⟩ := effect_settingsInv hl ⟨hconfig, hratio⟩ i
  exact ⟨by rwa [effect_params], effect_ringInv hl hring i, hconfig', hratio', effect_pacerInv hconfig hpacer i,
    effect_phaseInv hphase hi, hstore.congr (effect_params i s) (effect_store i s)⟩

/-- Settles O55: a wait step, an instruction or a refused word, each on a state that has the invariant. -/
theorem stepKeepsTheInvariant : Obligations.StepKeepsTheInvariant := by
  unfold Obligations.StepKeepsTheInvariant
  intro s t h hstep
  obtain ⟨u, _, hu, _, rfl⟩ | ⟨i, u, _, hu, hi, rfl⟩ | ⟨u, _, hu, _, rfl⟩ := step_cases hstep
  · exact State.enqueueStep_inv (hu.inv h)
  · exact effect_inv (hu.inv h) (by rwa [hu.phase])
  · exact hu.inv h

/-- Settles O54: the reset values of the registers, an idle producer and an empty store. -/
theorem resetHasTheInvariant : Obligations.ResetHasTheInvariant := by
  unfold Obligations.ResetHasTheInvariant
  have hl : State.reset.params.Legal := by decide
  obtain ⟨hconfig, hratio⟩ := State.settingsInv_of_reset (s := State.reset) (l := .closed) hl rfl
  exact ⟨hl, by decide, hconfig, hratio, .of_remainder_zero rfl, .of_idle rfl,
    ⟨List.Pairwise.nil, List.forall_mem_nil _⟩, List.forall_mem_nil _⟩

end Sys2Proof.Machine
end
